-- ==== Sys2Proof/Word.lean ====
section
/-! DEFINITION. The word types of the machine: 32-bit words, 16-bit halfwords, bytes, and register numbers (R8, R9, R32). -/

namespace Sys2Proof

/-- A register value, an address or an ALU result: 32 bits, wrapping modulo 2^32 (R8, R9). -/
abbrev Word := BitVec 32

/-- A THUMB opcode, or a halfword of memory (R110). -/
abbrev Half := BitVec 16

/-- The unit of the bus: one byte an address (R80). -/
abbrev Byte := BitVec 8

/-- A logical register number r0..r15 (R32); r13 is SP, r14 is LR, r15 is PC (R33). -/
abbrev Reg := Fin 16

/-- A three-bit THUMB register number r0..r7 (R140). -/
abbrev LoReg := Fin 8

end Sys2Proof
end

