-- ==== Sys2Proof/Syntax.lean ====
section
/-! DEFINITION. The instructions as syntax: one constructor for each row of spec/opcode_table.json, with every field the row's
encoding has (should-be-zero fields too, since the machine ignores or tests them). -/

namespace Sys2Proof

/-- The condition field, opcode[31:28] (R111, R171); `nv` is the reserved code 1111 (R172). -/
inductive Cond where
  | eq | ne | cs | cc | mi | pl | vs | vc | hi | ls | ge | lt | gt | le | al | nv
  deriving DecidableEq, Repr

/-- The shift type, 00 LSL, 01 LSR, 10 ASR, 11 ROR (R114). -/
inductive ShiftType where
  | lsl | lsr | asr | ror
  deriving DecidableEq, Repr

/-- The shifter operand of data processing (R114); the eleven sub-encodings of R191 to R202 are the values of these three forms. -/
inductive ShifterOperand where
  /-- I = 1: an 8-bit value rotated right by twice `rot` (R191) -/
  | imm (rot : BitVec 4) (imm8 : BitVec 8)
  /-- I = 0, bit 4 = 0: a register shifted by an immediate (R192 to R196, R202) -/
  | immShift (amount : BitVec 5) (ty : ShiftType) (rm : Reg)
  /-- I = 0, bit 4 = 1: a register shifted by a register (R197 to R201) -/
  | regShift (rs : Reg) (ty : ShiftType) (rm : Reg)
  deriving DecidableEq, Repr

/-- The indexing form, selected by P and W (R221). -/
inductive Index where
  /-- P = 1, W = 0 -/
  | offset
  /-- P = 1, W = 1 -/
  | pre
  /-- P = 0, W = 0 -/
  | post
  /-- P = 0, W = 1: the T forms of mode 2, which have constructors of their own; UNPREDICTABLE in mode 3 (R229) -/
  | postW
  deriving DecidableEq, Repr

/-- The offset of addressing mode 2 (R119, R222 to R224). -/
inductive Offset2 where
  | imm (offset12 : BitVec 12)
  | reg (amount : BitVec 5) (ty : ShiftType) (rm : Reg)
  deriving DecidableEq, Repr

/-- The offset of addressing mode 3 (R118, R227, R228). -/
inductive Offset3 where
  | imm (offset8 : BitVec 8)
  | reg (rm : Reg)
  deriving DecidableEq, Repr

/-- The form of a block transfer, selected by P and U (R280). -/
inductive BlockForm where
  | ia | ib | da | db
  deriving DecidableEq, Repr

/-- One constructor for each row of spec/opcode_table.json, in the table's order. The docstring names the rule of the spec that
gives the row its meaning; for a THUMB row it names the format of R140, and R440 gives every one its refusal. -/
inductive Instr where
  /-- R356 -/
  | and (cond : Cond) (sf : Bool) (rn rd : Reg) (op : ShifterOperand)
  /-- R357 -/
  | eor (cond : Cond) (sf : Bool) (rn rd : Reg) (op : ShifterOperand)
  /-- R358 -/
  | sub (cond : Cond) (sf : Bool) (rn rd : Reg) (op : ShifterOperand)
  /-- R359 -/
  | rsb (cond : Cond) (sf : Bool) (rn rd : Reg) (op : ShifterOperand)
  /-- R360 -/
  | add (cond : Cond) (sf : Bool) (rn rd : Reg) (op : ShifterOperand)
  /-- R361 -/
  | adc (cond : Cond) (sf : Bool) (rn rd : Reg) (op : ShifterOperand)
  /-- R362 -/
  | sbc (cond : Cond) (sf : Bool) (rn rd : Reg) (op : ShifterOperand)
  /-- R363 -/
  | rsc (cond : Cond) (sf : Bool) (rn rd : Reg) (op : ShifterOperand)
  /-- R364 -/
  | tst (cond : Cond) (rn sbzRd : Reg) (op : ShifterOperand)
  /-- R365 -/
  | teq (cond : Cond) (rn sbzRd : Reg) (op : ShifterOperand)
  /-- R366 -/
  | cmp (cond : Cond) (rn sbzRd : Reg) (op : ShifterOperand)
  /-- R367 -/
  | cmn (cond : Cond) (rn sbzRd : Reg) (op : ShifterOperand)
  /-- R368 -/
  | orr (cond : Cond) (sf : Bool) (rn rd : Reg) (op : ShifterOperand)
  /-- R369 -/
  | mov (cond : Cond) (sf : Bool) (sbzRn rd : Reg) (op : ShifterOperand)
  /-- R370 -/
  | bic (cond : Cond) (sf : Bool) (rn rd : Reg) (op : ShifterOperand)
  /-- R371 -/
  | mvn (cond : Cond) (sf : Bool) (sbzRn rd : Reg) (op : ShifterOperand)
  /-- R330 -/
  | mul (cond : Cond) (sf : Bool) (rd sbzRn rs rm : Reg)
  /-- R332 -/
  | mla (cond : Cond) (sf : Bool) (rd rn rs rm : Reg)
  /-- R334 -/
  | umull (cond : Cond) (sf : Bool) (rdHi rdLo rs rm : Reg)
  /-- R335 -/
  | umlal (cond : Cond) (sf : Bool) (rdHi rdLo rs rm : Reg)
  /-- R336 -/
  | smull (cond : Cond) (sf : Bool) (rdHi rdLo rs rm : Reg)
  /-- R337 -/
  | smlal (cond : Cond) (sf : Bool) (rdHi rdLo rs rm : Reg)
  /-- R241 -/
  | swp (cond : Cond) (rn rd rm : Reg)
  /-- R241 -/
  | swpb (cond : Cond) (rn rd rm : Reg)
  /-- R230 -/
  | ldr (cond : Cond) (idx : Index) (up : Bool) (rn rd : Reg) (off : Offset2)
  /-- R231 -/
  | str (cond : Cond) (idx : Index) (up : Bool) (rn rd : Reg) (off : Offset2)
  /-- R232 -/
  | ldrb (cond : Cond) (idx : Index) (up : Bool) (rn rd : Reg) (off : Offset2)
  /-- R233 -/
  | strb (cond : Cond) (idx : Index) (up : Bool) (rn rd : Reg) (off : Offset2)
  /-- R234 -/
  | ldrt (cond : Cond) (up : Bool) (rn rd : Reg) (off : Offset2)
  /-- R235 -/
  | strt (cond : Cond) (up : Bool) (rn rd : Reg) (off : Offset2)
  /-- R234 -/
  | ldrbt (cond : Cond) (up : Bool) (rn rd : Reg) (off : Offset2)
  /-- R235 -/
  | strbt (cond : Cond) (up : Bool) (rn rd : Reg) (off : Offset2)
  /-- R236 -/
  | ldrh (cond : Cond) (idx : Index) (up : Bool) (rn rd : Reg) (off : Offset3)
  /-- R237 -/
  | strh (cond : Cond) (idx : Index) (up : Bool) (rn rd : Reg) (off : Offset3)
  /-- R238 -/
  | ldrsb (cond : Cond) (idx : Index) (up : Bool) (rn rd : Reg) (off : Offset3)
  /-- R239 -/
  | ldrsh (cond : Cond) (idx : Index) (up : Bool) (rn rd : Reg) (off : Offset3)
  /-- R286 -/
  | ldmia (cond : Cond) (wb : Bool) (rn : Reg) (list : BitVec 16)
  /-- R286 -/
  | ldmib (cond : Cond) (wb : Bool) (rn : Reg) (list : BitVec 16)
  /-- R286 -/
  | ldmda (cond : Cond) (wb : Bool) (rn : Reg) (list : BitVec 16)
  /-- R286 -/
  | ldmdb (cond : Cond) (wb : Bool) (rn : Reg) (list : BitVec 16)
  /-- R287 -/
  | stmia (cond : Cond) (wb : Bool) (rn : Reg) (list : BitVec 16)
  /-- R287 -/
  | stmib (cond : Cond) (wb : Bool) (rn : Reg) (list : BitVec 16)
  /-- R287 -/
  | stmda (cond : Cond) (wb : Bool) (rn : Reg) (list : BitVec 16)
  /-- R287 -/
  | stmdb (cond : Cond) (wb : Bool) (rn : Reg) (list : BitVec 16)
  /-- R290; the list holds r15 -/
  | ldmReturn (cond : Cond) (form : BlockForm) (wb : Bool) (rn : Reg) (list : BitVec 16)
  /-- R292; the list does not hold r15 -/
  | ldmUser (cond : Cond) (form : BlockForm) (wb : Bool) (rn : Reg) (list : BitVec 16)
  /-- R293 -/
  | stmUser (cond : Cond) (form : BlockForm) (wb : Bool) (rn : Reg) (list : BitVec 16)
  /-- R310 -/
  | b (cond : Cond) (imm24 : BitVec 24)
  /-- R311 -/
  | bl (cond : Cond) (imm24 : BitVec 24)
  /-- R312 -/
  | bx (cond : Cond) (rm : Reg)
  /-- R390 -/
  | mrs (cond : Cond) (spsr : Bool) (rd : Reg)
  /-- R391 to R393 -/
  | msrCpsrReg (cond : Cond) (mask : BitVec 4) (rm : Reg)
  /-- R391, R392, R395 -/
  | msrSpsrReg (cond : Cond) (mask : BitVec 4) (rm : Reg)
  /-- R391 to R394 -/
  | msrCpsrImm (cond : Cond) (mask rot : BitVec 4) (imm8 : BitVec 8)
  /-- R391, R392, R395 -/
  | msrSpsrImm (cond : Cond) (mask rot : BitVec 4) (imm8 : BitVec 8)
  /-- R400 -/
  | swi (cond : Cond) (imm24 : BitVec 24)
  /-- R120, R410; `hi` and `lo` are the ignored bits 24:5 and 3:0, kept because the outcome reports the word -/
  | und (cond : Cond) (hi : BitVec 20) (lo : BitVec 4)
  /-- R125, R412; bits 23:5 and 3:0 -/
  | cdp (cond : Cond) (hi : BitVec 19) (lo : BitVec 4)
  /-- R125, R412; bits 23:21, 19:5 and 3:0 -/
  | mcr (cond : Cond) (hi : BitVec 3) (mid : BitVec 15) (lo : BitVec 4)
  /-- R125, R412; bits 23:21, 19:5 and 3:0 -/
  | mrc (cond : Cond) (hi : BitVec 3) (mid : BitVec 15) (lo : BitVec 4)
  /-- R125, R412; bits 24:21 and 19:0 -/
  | stc (cond : Cond) (hi : BitVec 4) (lo : BitVec 20)
  /-- R125, R412; bits 24:21 and 19:0 -/
  | ldc (cond : Cond) (hi : BitVec 4) (lo : BitVec 20)
  /-- format 1 -/
  | thumbLslImm (offset5 : BitVec 5) (rs rd : LoReg)
  /-- format 1 -/
  | thumbLsrImm (offset5 : BitVec 5) (rs rd : LoReg)
  /-- format 1 -/
  | thumbAsrImm (offset5 : BitVec 5) (rs rd : LoReg)
  /-- format 2 -/
  | thumbAddReg (rn rs rd : LoReg)
  /-- format 2 -/
  | thumbSubReg (rn rs rd : LoReg)
  /-- format 2 -/
  | thumbAddImm3 (imm3 : BitVec 3) (rs rd : LoReg)
  /-- format 2 -/
  | thumbSubImm3 (imm3 : BitVec 3) (rs rd : LoReg)
  /-- format 3 -/
  | thumbMovImm8 (rd : LoReg) (imm8 : BitVec 8)
  /-- format 3 -/
  | thumbCmpImm8 (rd : LoReg) (imm8 : BitVec 8)
  /-- format 3 -/
  | thumbAddImm8 (rd : LoReg) (imm8 : BitVec 8)
  /-- format 3 -/
  | thumbSubImm8 (rd : LoReg) (imm8 : BitVec 8)
  /-- format 4 -/
  | thumbAndAlu (rs rd : LoReg)
  /-- format 4 -/
  | thumbEorAlu (rs rd : LoReg)
  /-- format 4 -/
  | thumbLslAlu (rs rd : LoReg)
  /-- format 4 -/
  | thumbLsrAlu (rs rd : LoReg)
  /-- format 4 -/
  | thumbAsrAlu (rs rd : LoReg)
  /-- format 4 -/
  | thumbAdcAlu (rs rd : LoReg)
  /-- format 4 -/
  | thumbSbcAlu (rs rd : LoReg)
  /-- format 4 -/
  | thumbRorAlu (rs rd : LoReg)
  /-- format 4 -/
  | thumbTstAlu (rs rd : LoReg)
  /-- format 4 -/
  | thumbNegAlu (rs rd : LoReg)
  /-- format 4 -/
  | thumbCmpAlu (rs rd : LoReg)
  /-- format 4 -/
  | thumbCmnAlu (rs rd : LoReg)
  /-- format 4 -/
  | thumbOrrAlu (rs rd : LoReg)
  /-- format 4 -/
  | thumbMulAlu (rs rd : LoReg)
  /-- format 4 -/
  | thumbBicAlu (rs rd : LoReg)
  /-- format 4 -/
  | thumbMvnAlu (rs rd : LoReg)
  /-- format 5 -/
  | thumbAddHi (h1 h2 : Bool) (rs rd : LoReg)
  /-- format 5 -/
  | thumbCmpHi (h1 h2 : Bool) (rs rd : LoReg)
  /-- format 5 -/
  | thumbMovHi (h1 h2 : Bool) (rs rd : LoReg)
  /-- format 5 -/
  | thumbBx (h1 h2 : Bool) (rs rd : LoReg)
  /-- format 6 -/
  | thumbLdrPc (rd : LoReg) (word8 : BitVec 8)
  /-- format 7 -/
  | thumbStrRegOff (ro rb rd : LoReg)
  /-- format 7 -/
  | thumbStrbRegOff (ro rb rd : LoReg)
  /-- format 7 -/
  | thumbLdrRegOff (ro rb rd : LoReg)
  /-- format 7 -/
  | thumbLdrbRegOff (ro rb rd : LoReg)
  /-- format 8 -/
  | thumbStrhRegOff (ro rb rd : LoReg)
  /-- format 8 -/
  | thumbLdsbRegOff (ro rb rd : LoReg)
  /-- format 8 -/
  | thumbLdrhRegOff (ro rb rd : LoReg)
  /-- format 8 -/
  | thumbLdshRegOff (ro rb rd : LoReg)
  /-- format 9 -/
  | thumbStrImmOff (offset5 : BitVec 5) (rb rd : LoReg)
  /-- format 9 -/
  | thumbLdrImmOff (offset5 : BitVec 5) (rb rd : LoReg)
  /-- format 9 -/
  | thumbStrbImmOff (offset5 : BitVec 5) (rb rd : LoReg)
  /-- format 9 -/
  | thumbLdrbImmOff (offset5 : BitVec 5) (rb rd : LoReg)
  /-- format 10 -/
  | thumbStrhImmOff (offset5 : BitVec 5) (rb rd : LoReg)
  /-- format 10 -/
  | thumbLdrhImmOff (offset5 : BitVec 5) (rb rd : LoReg)
  /-- format 11 -/
  | thumbStrSp (rd : LoReg) (word8 : BitVec 8)
  /-- format 11 -/
  | thumbLdrSp (rd : LoReg) (word8 : BitVec 8)
  /-- format 12 -/
  | thumbAddPc (rd : LoReg) (word8 : BitVec 8)
  /-- format 12 -/
  | thumbAddSp (rd : LoReg) (word8 : BitVec 8)
  /-- format 13 -/
  | thumbSpPlus (sword7 : BitVec 7)
  /-- format 13 -/
  | thumbSpMinus (sword7 : BitVec 7)
  /-- format 14 -/
  | thumbPush (r : Bool) (rlist : BitVec 8)
  /-- format 14 -/
  | thumbPop (r : Bool) (rlist : BitVec 8)
  /-- format 15 -/
  | thumbStmia (rb : LoReg) (rlist : BitVec 8)
  /-- format 15 -/
  | thumbLdmia (rb : LoReg) (rlist : BitVec 8)
  /-- format 16 -/
  | thumbBCond (cond : BitVec 4) (soffset8 : BitVec 8)
  /-- format 17 -/
  | thumbSwi (value8 : BitVec 8)
  /-- format 16 with the reserved code 1110 -/
  | thumbUnd (value8 : BitVec 8)
  /-- format 18 -/
  | thumbB (offset11 : BitVec 11)
  /-- format 19 -/
  | thumbBlHigh (offset11 : BitVec 11)
  /-- format 19 -/
  | thumbBlLow (offset11 : BitVec 11)
  deriving DecidableEq, Repr

/-- Whether an instruction is one of the 16-bit THUMB set (R110). -/
def Instr.isThumb : Instr → Bool
  | .and .. => false
  | .eor .. => false
  | .sub .. => false
  | .rsb .. => false
  | .add .. => false
  | .adc .. => false
  | .sbc .. => false
  | .rsc .. => false
  | .tst .. => false
  | .teq .. => false
  | .cmp .. => false
  | .cmn .. => false
  | .orr .. => false
  | .mov .. => false
  | .bic .. => false
  | .mvn .. => false
  | .mul .. => false
  | .mla .. => false
  | .umull .. => false
  | .umlal .. => false
  | .smull .. => false
  | .smlal .. => false
  | .swp .. => false
  | .swpb .. => false
  | .ldr .. => false
  | .str .. => false
  | .ldrb .. => false
  | .strb .. => false
  | .ldrt .. => false
  | .strt .. => false
  | .ldrbt .. => false
  | .strbt .. => false
  | .ldrh .. => false
  | .strh .. => false
  | .ldrsb .. => false
  | .ldrsh .. => false
  | .ldmia .. => false
  | .ldmib .. => false
  | .ldmda .. => false
  | .ldmdb .. => false
  | .stmia .. => false
  | .stmib .. => false
  | .stmda .. => false
  | .stmdb .. => false
  | .ldmReturn .. => false
  | .ldmUser .. => false
  | .stmUser .. => false
  | .b .. => false
  | .bl .. => false
  | .bx .. => false
  | .mrs .. => false
  | .msrCpsrReg .. => false
  | .msrSpsrReg .. => false
  | .msrCpsrImm .. => false
  | .msrSpsrImm .. => false
  | .swi .. => false
  | .und .. => false
  | .cdp .. => false
  | .mcr .. => false
  | .mrc .. => false
  | .stc .. => false
  | .ldc .. => false
  | .thumbLslImm .. => true
  | .thumbLsrImm .. => true
  | .thumbAsrImm .. => true
  | .thumbAddReg .. => true
  | .thumbSubReg .. => true
  | .thumbAddImm3 .. => true
  | .thumbSubImm3 .. => true
  | .thumbMovImm8 .. => true
  | .thumbCmpImm8 .. => true
  | .thumbAddImm8 .. => true
  | .thumbSubImm8 .. => true
  | .thumbAndAlu .. => true
  | .thumbEorAlu .. => true
  | .thumbLslAlu .. => true
  | .thumbLsrAlu .. => true
  | .thumbAsrAlu .. => true
  | .thumbAdcAlu .. => true
  | .thumbSbcAlu .. => true
  | .thumbRorAlu .. => true
  | .thumbTstAlu .. => true
  | .thumbNegAlu .. => true
  | .thumbCmpAlu .. => true
  | .thumbCmnAlu .. => true
  | .thumbOrrAlu .. => true
  | .thumbMulAlu .. => true
  | .thumbBicAlu .. => true
  | .thumbMvnAlu .. => true
  | .thumbAddHi .. => true
  | .thumbCmpHi .. => true
  | .thumbMovHi .. => true
  | .thumbBx .. => true
  | .thumbLdrPc .. => true
  | .thumbStrRegOff .. => true
  | .thumbStrbRegOff .. => true
  | .thumbLdrRegOff .. => true
  | .thumbLdrbRegOff .. => true
  | .thumbStrhRegOff .. => true
  | .thumbLdsbRegOff .. => true
  | .thumbLdrhRegOff .. => true
  | .thumbLdshRegOff .. => true
  | .thumbStrImmOff .. => true
  | .thumbLdrImmOff .. => true
  | .thumbStrbImmOff .. => true
  | .thumbLdrbImmOff .. => true
  | .thumbStrhImmOff .. => true
  | .thumbLdrhImmOff .. => true
  | .thumbStrSp .. => true
  | .thumbLdrSp .. => true
  | .thumbAddPc .. => true
  | .thumbAddSp .. => true
  | .thumbSpPlus .. => true
  | .thumbSpMinus .. => true
  | .thumbPush .. => true
  | .thumbPop .. => true
  | .thumbStmia .. => true
  | .thumbLdmia .. => true
  | .thumbBCond .. => true
  | .thumbSwi .. => true
  | .thumbUnd .. => true
  | .thumbB .. => true
  | .thumbBlHigh .. => true
  | .thumbBlLow .. => true

end Sys2Proof
end

