-- ==== Sys2Proof/WellFormed.lean ====
section
/-! DEFINITION. The well-formed instructions: those that some word of their own opcode-table row encodes. -/

namespace Sys2Proof

/-- A mode-2 row other than a T form has no P = 0, W = 1 form (R221, R230 to R233; the table's notes of LDR, STR, LDRB, STRB). -/
def Index.wfMode2 : Index → Bool
  | .postW => false
  | .offset | .pre | .post => true

/-- An instruction that its own row can encode: the P, W forms of mode 2 (R221), r15 in the list of an exception-return LDM and
not in that of a user-bank LDM (R290, R292), a THUMB branch condition other than 1110 and 1111 (R140, R150). Every other field
takes every value of its type. -/
def Instr.wf : Instr → Bool
  | .ldr _ idx _ _ _ _ => idx.wfMode2
  | .str _ idx _ _ _ _ => idx.wfMode2
  | .ldrb _ idx _ _ _ _ => idx.wfMode2
  | .strb _ idx _ _ _ _ => idx.wfMode2
  | .ldmReturn _ _ _ _ list => list.getLsbD 15
  | .ldmUser _ _ _ _ list => !list.getLsbD 15
  | .thumbBCond cond _ => decide (cond.toNat < 14)
  | .and .. => true
  | .eor .. => true
  | .sub .. => true
  | .rsb .. => true
  | .add .. => true
  | .adc .. => true
  | .sbc .. => true
  | .rsc .. => true
  | .tst .. => true
  | .teq .. => true
  | .cmp .. => true
  | .cmn .. => true
  | .orr .. => true
  | .mov .. => true
  | .bic .. => true
  | .mvn .. => true
  | .mul .. => true
  | .mla .. => true
  | .umull .. => true
  | .umlal .. => true
  | .smull .. => true
  | .smlal .. => true
  | .swp .. => true
  | .swpb .. => true
  | .ldrt .. => true
  | .strt .. => true
  | .ldrbt .. => true
  | .strbt .. => true
  | .ldrh .. => true
  | .strh .. => true
  | .ldrsb .. => true
  | .ldrsh .. => true
  | .ldmia .. => true
  | .ldmib .. => true
  | .ldmda .. => true
  | .ldmdb .. => true
  | .stmia .. => true
  | .stmib .. => true
  | .stmda .. => true
  | .stmdb .. => true
  | .stmUser .. => true
  | .b .. => true
  | .bl .. => true
  | .bx .. => true
  | .mrs .. => true
  | .msrCpsrReg .. => true
  | .msrSpsrReg .. => true
  | .msrCpsrImm .. => true
  | .msrSpsrImm .. => true
  | .swi .. => true
  | .und .. => true
  | .cdp .. => true
  | .mcr .. => true
  | .mrc .. => true
  | .stc .. => true
  | .ldc .. => true
  | .thumbLslImm .. => true
  | .thumbLsrImm .. => true
  | .thumbAsrImm .. => true
  | .thumbAddReg .. => true
  | .thumbSubReg .. => true
  | .thumbAddImm3 .. => true
  | .thumbSubImm3 .. => true
  | .thumbMovImm8 .. => true
  | .thumbCmpImm8 .. => true
  | .thumbAddImm8 .. => true
  | .thumbSubImm8 .. => true
  | .thumbAndAlu .. => true
  | .thumbEorAlu .. => true
  | .thumbLslAlu .. => true
  | .thumbLsrAlu .. => true
  | .thumbAsrAlu .. => true
  | .thumbAdcAlu .. => true
  | .thumbSbcAlu .. => true
  | .thumbRorAlu .. => true
  | .thumbTstAlu .. => true
  | .thumbNegAlu .. => true
  | .thumbCmpAlu .. => true
  | .thumbCmnAlu .. => true
  | .thumbOrrAlu .. => true
  | .thumbMulAlu .. => true
  | .thumbBicAlu .. => true
  | .thumbMvnAlu .. => true
  | .thumbAddHi .. => true
  | .thumbCmpHi .. => true
  | .thumbMovHi .. => true
  | .thumbBx .. => true
  | .thumbLdrPc .. => true
  | .thumbStrRegOff .. => true
  | .thumbStrbRegOff .. => true
  | .thumbLdrRegOff .. => true
  | .thumbLdrbRegOff .. => true
  | .thumbStrhRegOff .. => true
  | .thumbLdsbRegOff .. => true
  | .thumbLdrhRegOff .. => true
  | .thumbLdshRegOff .. => true
  | .thumbStrImmOff .. => true
  | .thumbLdrImmOff .. => true
  | .thumbStrbImmOff .. => true
  | .thumbLdrbImmOff .. => true
  | .thumbStrhImmOff .. => true
  | .thumbLdrhImmOff .. => true
  | .thumbStrSp .. => true
  | .thumbLdrSp .. => true
  | .thumbAddPc .. => true
  | .thumbAddSp .. => true
  | .thumbSpPlus .. => true
  | .thumbSpMinus .. => true
  | .thumbPush .. => true
  | .thumbPop .. => true
  | .thumbStmia .. => true
  | .thumbLdmia .. => true
  | .thumbSwi .. => true
  | .thumbUnd .. => true
  | .thumbB .. => true
  | .thumbBlHigh .. => true
  | .thumbBlLow .. => true

/-- `Instr.wf` as a proposition. -/
abbrev Instr.WellFormed (i : Instr) : Prop := i.wf = true

end Sys2Proof
end

