-- ==== Sys2Proof/Decode.lean ====
section
/-! DEFINITION. Decoding: the ARM and THUMB classifiers (R130, R150), the decoder from an opcode to an instruction, total on any
bits and rejecting by name, the decoded THUMB records (R421, R422), and after them the encoder, written from the same formats. -/

namespace Sys2Proof

/-! ## Bit fields (R13) -/

/-- The field of a word that starts at bit `lo`, `n` bits wide: `v[lo+n-1 : lo]` (R13). -/
def fieldAt {m : Nat} (v : BitVec m) (lo n : Nat) : BitVec n := v.extractLsb' lo n

/-- The four-bit register number at bit `lo`. -/
def regAt {m : Nat} (v : BitVec m) (lo : Nat) : Reg := (fieldAt v lo 4).toFin

/-- The three-bit register number at bit `lo` of a THUMB halfword. -/
def loRegAt {m : Nat} (v : BitVec m) (lo : Nat) : LoReg := (fieldAt v lo 3).toFin

/-- A field's value moved to bit `lo` of a word that is zero elsewhere. -/
def place {n m : Nat} (lo : Nat) (v : BitVec n) : BitVec m := v.setWidth m <<< lo

/-- A register number at bit `lo`. -/
def placeReg {m : Nat} (lo : Nat) (r : Reg) : BitVec m := place lo (BitVec.ofFin (w := 4) r)

/-- A three-bit register number at bit `lo`. -/
def placeLo {m : Nat} (lo : Nat) (r : LoReg) : BitVec m := place lo (BitVec.ofFin (w := 3) r)

/-- One bit at bit `lo`. -/
def placeBit {m : Nat} (lo : Nat) (b : Bool) : BitVec m := place lo (BitVec.ofBool b)

/-! ## Codes of the small fields -/

/-- The 4-bit code of a condition (R171). -/
def Cond.code : Cond → BitVec 4
  | .eq => 0 | .ne => 1 | .cs => 2 | .cc => 3 | .mi => 4 | .pl => 5 | .vs => 6 | .vc => 7
  | .hi => 8 | .ls => 9 | .ge => 10 | .lt => 11 | .gt => 12 | .le => 13 | .al => 14 | .nv => 15

/-- The condition of a 4-bit code (R171). -/
def Cond.ofCode (c : BitVec 4) : Cond :=
  match c.toNat with
  | 0 => .eq | 1 => .ne | 2 => .cs | 3 => .cc | 4 => .mi | 5 => .pl | 6 => .vs | 7 => .vc
  | 8 => .hi | 9 => .ls | 10 => .ge | 11 => .lt | 12 => .gt | 13 => .le | 14 => .al | _ => .nv

/-- 00 LSL, 01 LSR, 10 ASR, 11 ROR (R114). -/
def ShiftType.code : ShiftType → BitVec 2
  | .lsl => 0 | .lsr => 1 | .asr => 2 | .ror => 3

/-- The shift type of a 2-bit code (R114). -/
def ShiftType.ofCode (c : BitVec 2) : ShiftType :=
  match c.toNat with
  | 0 => .lsl | 1 => .lsr | 2 => .asr | _ => .ror

/-- Bit 24 of an indexing form (R221). -/
def Index.p : Index → Bool
  | .offset | .pre => true
  | .post | .postW => false

/-- Bit 21 of an indexing form (R221). -/
def Index.w : Index → Bool
  | .pre | .postW => true
  | .offset | .post => false

/-- The indexing form of P and W (R221). -/
def Index.ofPW (p w : Bool) : Index :=
  match p, w with
  | true, false => .offset
  | true, true => .pre
  | false, false => .post
  | false, true => .postW

/-- Bit 24, 1 = before (R280). -/
def BlockForm.p : BlockForm → Bool
  | .ib | .db => true
  | .ia | .da => false

/-- Bit 23, 1 = increment (R280). -/
def BlockForm.u : BlockForm → Bool
  | .ia | .ib => true
  | .da | .db => false

/-- The block-transfer form of P and U (R280). -/
def BlockForm.ofPU (p u : Bool) : BlockForm :=
  match p, u with
  | false, true => .ia
  | true, true => .ib
  | false, false => .da
  | true, false => .db

/-! ## The ARM classifier (R130 to R135) -/

/-- The sub-kind of a row of R130, in the table's order; `undefined` is also the answer where no row matches. -/
inductive ArmKind where
  | branchExchange | blockTransfer | branch | softwareInterrupt | undefined | singleDataTransfer | singleDataSwap
  | multiply | multiplyLong | halfwordReg | halfwordImm | mrs | msrReg | msrImm | dataProcessing | unmatched
  deriving DecidableEq, Repr

/-- The twelve families the source counts (R132). -/
inductive ArmFamily where
  | branchExchange | blockTransfer | branch | softwareInterrupt | undefined | singleDataTransfer | singleDataSwap
  | multiply | halfwordRegister | halfwordImmediate | psrTransfer | dataProcessing
  deriving DecidableEq, Repr

/-- The family of a sub-kind (R130, R132); a word no row matches is Undefined. -/
def ArmKind.family : ArmKind → ArmFamily
  | .branchExchange => .branchExchange
  | .blockTransfer => .blockTransfer
  | .branch => .branch
  | .softwareInterrupt => .softwareInterrupt
  | .undefined | .unmatched => .undefined
  | .singleDataTransfer => .singleDataTransfer
  | .singleDataSwap => .singleDataSwap
  | .multiply | .multiplyLong => .multiply
  | .halfwordReg => .halfwordRegister
  | .halfwordImm => .halfwordImmediate
  | .mrs | .msrReg | .msrImm => .psrTransfer
  | .dataProcessing => .dataProcessing

/-- A row of a classifier: a word belongs to it when `(word AND mask) = format` (R130, R150). -/
structure ClassRow (n : Nat) (κ : Type) where
  mask : BitVec n
  format : BitVec n
  kind : κ

/-- The first row that matches (R130: "the first family whose (opcode & mask) == format succeeds wins"). -/
def firstMatch {n : Nat} {κ : Type} (w : BitVec n) : List (ClassRow n κ) → Option κ
  | [] => none
  | r :: rs => if w &&& r.mask = r.format then some r.kind else firstMatch w rs

/-- The fifteen rows of R130, in order. -/
def armRows : List (ClassRow 32 ArmKind) :=
  [ ⟨0x0FFFFFF0, 0x012FFF10, .branchExchange⟩,
    ⟨0x0E000000, 0x08000000, .blockTransfer⟩,
    ⟨0x0E000000, 0x0A000000, .branch⟩,
    ⟨0x0F000000, 0x0F000000, .softwareInterrupt⟩,
    ⟨0x0E000010, 0x06000010, .undefined⟩,
    ⟨0x0C000000, 0x04000000, .singleDataTransfer⟩,
    ⟨0x0FB00FF0, 0x01000090, .singleDataSwap⟩,
    ⟨0x0FC000F0, 0x00000090, .multiply⟩ ] ++
  [ ⟨0x0F8000F0, 0x00800090, .multiplyLong⟩,
    ⟨0x0E400090, 0x00000090, .halfwordReg⟩,
    ⟨0x0E400090, 0x00400090, .halfwordImm⟩,
    ⟨0x0FBF0FFF, 0x010F0000, .mrs⟩,
    ⟨0x0FB0FFF0, 0x0120F000, .msrReg⟩,
    ⟨0x0FB0F000, 0x0320F000, .msrImm⟩,
    ⟨0x0C000000, 0x00000000, .dataProcessing⟩ ]

/-- classify(ARM, opcode) (R130). -/
def classifyArm (w : Word) : ArmKind := (firstMatch w armRows).getD .unmatched

/-! ## The ARM decoder -/

/-- Why an opcode is no instruction of the table. Every ARM case is a family-specific illegal sub-encoding of R133, whose effect
(R410, R411) the step gives; `thumbUnmatched` is R151; `truncated` is fewer bytes than an opcode has. -/
inductive DecodeError where
  /-- TST, TEQ, CMP or CMN with S = 0 (R133 item 1) -/
  | testWithoutS
  /-- a halfword transfer with SH = 00 (R133 item 2) -/
  | halfwordSh00
  /-- a halfword transfer with L = 0 and SH = 10 or 11 (R133 item 3) -/
  | signedStore
  /-- a halfword register offset with bits 11:8 not 0000 (R133 item 4, R228) -/
  | mode3ScaledShift
  /-- a word no row of R130 matches that is not in the coprocessor space; there is none (R412) -/
  | armUnmatched
  /-- a halfword no row of R150 matches (R151) -/
  | thumbUnmatched
  /-- too few bytes -/
  | truncated
  deriving DecidableEq, Repr

/-- An instruction, or why there is none. -/
abbrev Decoded := Except DecodeError Instr

/-- The condition of an ARM word (R111). -/
def condOf (w : Word) : Cond := Cond.ofCode (fieldAt w 28 4)

/-- The shifter operand of a data-processing word (R114, R190). -/
def shifterOf (w : Word) : ShifterOperand :=
  if w.getLsbD 25 then .imm (fieldAt w 8 4) (fieldAt w 0 8)
  else if w.getLsbD 4 then .regShift (regAt w 8) (.ofCode (fieldAt w 5 2)) (regAt w 0)
  else .immShift (fieldAt w 7 5) (.ofCode (fieldAt w 5 2)) (regAt w 0)

/-- Data processing (R112, R113, R133 item 1). -/
def decodeDataProcessing (w : Word) : Decoded :=
  let c := condOf w
  let sf := w.getLsbD 20
  let rn := regAt w 16
  let rd := regAt w 12
  let op := shifterOf w
  match (fieldAt w 21 4).toNat with
  | 0 => .ok (.and c sf rn rd op)
  | 1 => .ok (.eor c sf rn rd op)
  | 2 => .ok (.sub c sf rn rd op)
  | 3 => .ok (.rsb c sf rn rd op)
  | 4 => .ok (.add c sf rn rd op)
  | 5 => .ok (.adc c sf rn rd op)
  | 6 => .ok (.sbc c sf rn rd op)
  | 7 => .ok (.rsc c sf rn rd op)
  | 8 => if sf then .ok (.tst c rn rd op) else .error .testWithoutS
  | 9 => if sf then .ok (.teq c rn rd op) else .error .testWithoutS
  | 10 => if sf then .ok (.cmp c rn rd op) else .error .testWithoutS
  | 11 => if sf then .ok (.cmn c rn rd op) else .error .testWithoutS
  | 12 => .ok (.orr c sf rn rd op)
  | 13 => .ok (.mov c sf rn rd op)
  | 14 => .ok (.bic c sf rn rd op)
  | _ => .ok (.mvn c sf rn rd op)

/-- MUL and MLA (R116). -/
def decodeMultiply (w : Word) : Instr :=
  if w.getLsbD 21 then .mla (condOf w) (w.getLsbD 20) (regAt w 16) (regAt w 12) (regAt w 8) (regAt w 0)
  else .mul (condOf w) (w.getLsbD 20) (regAt w 16) (regAt w 12) (regAt w 8) (regAt w 0)

/-- The long multiplies: U (bit 22, 1 = signed) and A (bit 21) (R116). -/
def decodeMultiplyLong (w : Word) : Instr :=
  match w.getLsbD 22, w.getLsbD 21 with
  | false, false => .umull (condOf w) (w.getLsbD 20) (regAt w 16) (regAt w 12) (regAt w 8) (regAt w 0)
  | false, true => .umlal (condOf w) (w.getLsbD 20) (regAt w 16) (regAt w 12) (regAt w 8) (regAt w 0)
  | true, false => .smull (condOf w) (w.getLsbD 20) (regAt w 16) (regAt w 12) (regAt w 8) (regAt w 0)
  | true, true => .smlal (condOf w) (w.getLsbD 20) (regAt w 16) (regAt w 12) (regAt w 8) (regAt w 0)

/-- SWP and SWPB (R117). -/
def decodeSwap (w : Word) : Instr :=
  if w.getLsbD 22 then .swpb (condOf w) (regAt w 16) (regAt w 12) (regAt w 0)
  else .swp (condOf w) (regAt w 16) (regAt w 12) (regAt w 0)

/-- The indexing form of a load/store word: P (bit 24) and W (bit 21) (R118, R119, R221). -/
def indexOf (w : Word) : Index := .ofPW (w.getLsbD 24) (w.getLsbD 21)

/-- The mode-2 offset; here I = 0 is the immediate (R119). -/
def offset2Of (w : Word) : Offset2 :=
  if w.getLsbD 25 then .reg (fieldAt w 7 5) (.ofCode (fieldAt w 5 2)) (regAt w 0)
  else .imm (fieldAt w 0 12)

/-- Single data transfer (R119); P = 0 with W = 1 is the T form (R221). -/
def decodeSingle (w : Word) : Instr :=
  let c := condOf w
  let up := w.getLsbD 23
  let rn := regAt w 16
  let rd := regAt w 12
  let off := offset2Of w
  match indexOf w, w.getLsbD 20, w.getLsbD 22 with
  | .postW, true, false => .ldrt c up rn rd off
  | .postW, false, false => .strt c up rn rd off
  | .postW, true, true => .ldrbt c up rn rd off
  | .postW, false, true => .strbt c up rn rd off
  | idx, true, false => .ldr c idx up rn rd off
  | idx, false, false => .str c idx up rn rd off
  | idx, true, true => .ldrb c idx up rn rd off
  | idx, false, true => .strb c idx up rn rd off

/-- Halfword and signed transfer, with the illegal sub-encodings of R133 items 2 to 4 and R240 (R118). -/
def decodeHalfword (w : Word) : Decoded :=
  let c := condOf w
  let idx := indexOf w
  let up := w.getLsbD 23
  let rn := regAt w 16
  let rd := regAt w 12
  let off : Offset3 :=
    if w.getLsbD 22 then .imm ((fieldAt w 8 4) ++ (fieldAt w 0 4)) else .reg (regAt w 0)
  match (fieldAt w 5 2).toNat, w.getLsbD 20 with
  | 0, _ => .error .halfwordSh00
  | 2, false => .error .signedStore
  | 3, false => .error .signedStore
  | sh, l =>
    if w.getLsbD 22 = false ∧ fieldAt w 8 4 ≠ 0 then .error .mode3ScaledShift
    else
      match sh, l with
      | 1, true => .ok (.ldrh c idx up rn rd off)
      | 1, false => .ok (.strh c idx up rn rd off)
      | 2, _ => .ok (.ldrsb c idx up rn rd off)
      | _, _ => .ok (.ldrsh c idx up rn rd off)

/-- Block transfer (R121): S (bit 22) with L (bit 20) and r15 in the list selects the `^` forms (R290, R292, R293). -/
def decodeBlock (w : Word) : Instr :=
  let c := condOf w
  let form := BlockForm.ofPU (w.getLsbD 24) (w.getLsbD 23)
  let wb := w.getLsbD 21
  let rn := regAt w 16
  let list := fieldAt w 0 16
  match w.getLsbD 22, w.getLsbD 20 with
  | true, true => if w.getLsbD 15 then .ldmReturn c form wb rn list else .ldmUser c form wb rn list
  | true, false => .stmUser c form wb rn list
  | false, true =>
    match form with
    | .ia => .ldmia c wb rn list
    | .ib => .ldmib c wb rn list
    | .da => .ldmda c wb rn list
    | .db => .ldmdb c wb rn list
  | false, false =>
    match form with
    | .ia => .stmia c wb rn list
    | .ib => .stmib c wb rn list
    | .da => .stmda c wb rn list
    | .db => .stmdb c wb rn list

/-- The coprocessor space (R125), as the table's five rows divide it; any other word no row of R130 matches is rejected. -/
def decodeUnmatched (w : Word) : Decoded :=
  if fieldAt w 25 3 = 6 then
    if w.getLsbD 20 then .ok (.ldc (condOf w) (fieldAt w 21 4) (fieldAt w 0 20))
    else .ok (.stc (condOf w) (fieldAt w 21 4) (fieldAt w 0 20))
  else if fieldAt w 24 4 = 14 then
    if w.getLsbD 4 then
      if w.getLsbD 20 then .ok (.mrc (condOf w) (fieldAt w 21 3) (fieldAt w 5 15) (fieldAt w 0 4))
      else .ok (.mcr (condOf w) (fieldAt w 21 3) (fieldAt w 5 15) (fieldAt w 0 4))
    else .ok (.cdp (condOf w) (fieldAt w 5 19) (fieldAt w 0 4))
  else .error .armUnmatched

/-- The instruction of an ARM word: classify (R130), then cut the family's fields. -/
def decodeArm (w : Word) : Decoded :=
  match classifyArm w with
  | .branchExchange => .ok (.bx (condOf w) (regAt w 0))
  | .blockTransfer => .ok (decodeBlock w)
  | .branch =>
    if w.getLsbD 24 then .ok (.bl (condOf w) (fieldAt w 0 24)) else .ok (.b (condOf w) (fieldAt w 0 24))
  | .softwareInterrupt => .ok (.swi (condOf w) (fieldAt w 0 24))
  | .undefined => .ok (.und (condOf w) (fieldAt w 5 20) (fieldAt w 0 4))
  | .singleDataTransfer => .ok (decodeSingle w)
  | .singleDataSwap => .ok (decodeSwap w)
  | .multiply => .ok (decodeMultiply w)
  | .multiplyLong => .ok (decodeMultiplyLong w)
  | .halfwordReg => decodeHalfword w
  | .halfwordImm => decodeHalfword w
  | .mrs => .ok (.mrs (condOf w) (w.getLsbD 22) (regAt w 12))
  | .msrReg =>
    if w.getLsbD 22 then .ok (.msrSpsrReg (condOf w) (fieldAt w 16 4) (regAt w 0))
    else .ok (.msrCpsrReg (condOf w) (fieldAt w 16 4) (regAt w 0))
  | .msrImm =>
    if w.getLsbD 22 then .ok (.msrSpsrImm (condOf w) (fieldAt w 16 4) (fieldAt w 8 4) (fieldAt w 0 8))
    else .ok (.msrCpsrImm (condOf w) (fieldAt w 16 4) (fieldAt w 8 4) (fieldAt w 0 8))
  | .dataProcessing => decodeDataProcessing w
  | .unmatched => decodeUnmatched w

/-! ## The THUMB classifier (R150 to R152) -/

/-- The nineteen THUMB families and the reserved branch condition of row 17 (R140, R150). -/
inductive ThumbFamily where
  | moveShiftedRegister | addSubtract | moveCompareAddSubtractImmediate | aluOperation | hiRegisterOperationOrBranchExchange
  | pcRelativeLoad | loadStoreRegisterOffset | loadStoreSignExtended | loadStoreImmediateOffset | loadStoreHalfword
  | spRelativeLoadStore | loadAddress | addOffsetToSp | pushPop | multipleLoadStore | conditionalBranch | softwareInterrupt
  | unconditionalBranch | longBranchWithLink
  /-- row 17: condition code 1110 -/
  | undefined
  deriving DecidableEq, Repr

/-- The twenty rows of R150, in order. -/
def thumbRows : List (ClassRow 16 ThumbFamily) :=
  [ ⟨0xF800, 0x1800, .addSubtract⟩,
    ⟨0xE000, 0x0000, .moveShiftedRegister⟩,
    ⟨0xE000, 0x2000, .moveCompareAddSubtractImmediate⟩,
    ⟨0xFC00, 0x4000, .aluOperation⟩,
    ⟨0xFC00, 0x4400, .hiRegisterOperationOrBranchExchange⟩,
    ⟨0xF800, 0x4800, .pcRelativeLoad⟩,
    ⟨0xF200, 0x5000, .loadStoreRegisterOffset⟩,
    ⟨0xF200, 0x5200, .loadStoreSignExtended⟩,
    ⟨0xE000, 0x6000, .loadStoreImmediateOffset⟩,
    ⟨0xF000, 0x8000, .loadStoreHalfword⟩ ] ++
  [ ⟨0xF000, 0x9000, .spRelativeLoadStore⟩,
    ⟨0xF000, 0xA000, .loadAddress⟩,
    ⟨0xFF00, 0xB000, .addOffsetToSp⟩,
    ⟨0xF600, 0xB400, .pushPop⟩,
    ⟨0xF000, 0xC000, .multipleLoadStore⟩,
    ⟨0xFF00, 0xDF00, .softwareInterrupt⟩,
    ⟨0xFF00, 0xDE00, .undefined⟩,
    ⟨0xF000, 0xD000, .conditionalBranch⟩,
    ⟨0xF800, 0xE000, .unconditionalBranch⟩,
    ⟨0xF000, 0xF000, .longBranchWithLink⟩ ]

/-- The row of R150 a halfword matches; `none` where no row does, which classifies as Undefined (R151). -/
def thumbRowOf (h : Half) : Option ThumbFamily := firstMatch h thumbRows

/-- classify(THUMB, opcode16) (R150, R420): one of the nineteen families, or Undefined. -/
def classifyThumb (h : Half) : ThumbFamily := (thumbRowOf h).getD .undefined

/-! ## The THUMB decoder -/

/-- Format 4's sixteen operations (R141). -/
def decodeThumbAlu (h : Half) : Instr :=
  let rs := loRegAt h 3
  let rd := loRegAt h 0
  match (fieldAt h 6 4).toNat with
  | 0 => .thumbAndAlu rs rd
  | 1 => .thumbEorAlu rs rd
  | 2 => .thumbLslAlu rs rd
  | 3 => .thumbLsrAlu rs rd
  | 4 => .thumbAsrAlu rs rd
  | 5 => .thumbAdcAlu rs rd
  | 6 => .thumbSbcAlu rs rd
  | 7 => .thumbRorAlu rs rd
  | 8 => .thumbTstAlu rs rd
  | 9 => .thumbNegAlu rs rd
  | 10 => .thumbCmpAlu rs rd
  | 11 => .thumbCmnAlu rs rd
  | 12 => .thumbOrrAlu rs rd
  | 13 => .thumbMulAlu rs rd
  | 14 => .thumbBicAlu rs rd
  | _ => .thumbMvnAlu rs rd

/-- Format 1: Op (bits 12:11) (R140). -/
def decodeThumbShifted (h : Half) : Instr :=
  match (fieldAt h 11 2).toNat with
  | 0 => .thumbLslImm (fieldAt h 6 5) (loRegAt h 3) (loRegAt h 0)
  | 1 => .thumbLsrImm (fieldAt h 6 5) (loRegAt h 3) (loRegAt h 0)
  | _ => .thumbAsrImm (fieldAt h 6 5) (loRegAt h 3) (loRegAt h 0)

/-- Format 2: I (bit 10) and Op (bit 9) (R140). -/
def decodeThumbAddSub (h : Half) : Instr :=
  match h.getLsbD 10, h.getLsbD 9 with
  | false, false => .thumbAddReg (loRegAt h 6) (loRegAt h 3) (loRegAt h 0)
  | false, true => .thumbSubReg (loRegAt h 6) (loRegAt h 3) (loRegAt h 0)
  | true, false => .thumbAddImm3 (fieldAt h 6 3) (loRegAt h 3) (loRegAt h 0)
  | true, true => .thumbSubImm3 (fieldAt h 6 3) (loRegAt h 3) (loRegAt h 0)

/-- Format 3: Op (bits 12:11) (R140). -/
def decodeThumbImm8 (h : Half) : Instr :=
  match (fieldAt h 11 2).toNat with
  | 0 => .thumbMovImm8 (loRegAt h 8) (fieldAt h 0 8)
  | 1 => .thumbCmpImm8 (loRegAt h 8) (fieldAt h 0 8)
  | 2 => .thumbAddImm8 (loRegAt h 8) (fieldAt h 0 8)
  | _ => .thumbSubImm8 (loRegAt h 8) (fieldAt h 0 8)

/-- Format 5: Op (bits 9:8) (R140). -/
def decodeThumbHi (h : Half) : Instr :=
  match (fieldAt h 8 2).toNat with
  | 0 => .thumbAddHi (h.getLsbD 7) (h.getLsbD 6) (loRegAt h 3) (loRegAt h 0)
  | 1 => .thumbCmpHi (h.getLsbD 7) (h.getLsbD 6) (loRegAt h 3) (loRegAt h 0)
  | 2 => .thumbMovHi (h.getLsbD 7) (h.getLsbD 6) (loRegAt h 3) (loRegAt h 0)
  | _ => .thumbBx (h.getLsbD 7) (h.getLsbD 6) (loRegAt h 3) (loRegAt h 0)

/-- Format 7: L (bit 11) and B (bit 10) (R140, R141). -/
def decodeThumbRegOff (h : Half) : Instr :=
  match h.getLsbD 11, h.getLsbD 10 with
  | false, false => .thumbStrRegOff (loRegAt h 6) (loRegAt h 3) (loRegAt h 0)
  | false, true => .thumbStrbRegOff (loRegAt h 6) (loRegAt h 3) (loRegAt h 0)
  | true, false => .thumbLdrRegOff (loRegAt h 6) (loRegAt h 3) (loRegAt h 0)
  | true, true => .thumbLdrbRegOff (loRegAt h 6) (loRegAt h 3) (loRegAt h 0)

/-- Format 8: H (bit 11) and S (bit 10): 00 STRH, 10 LDRH, 01 LDSB, 11 LDSH (R140, R141). -/
def decodeThumbSignExt (h : Half) : Instr :=
  match h.getLsbD 11, h.getLsbD 10 with
  | false, false => .thumbStrhRegOff (loRegAt h 6) (loRegAt h 3) (loRegAt h 0)
  | true, false => .thumbLdrhRegOff (loRegAt h 6) (loRegAt h 3) (loRegAt h 0)
  | false, true => .thumbLdsbRegOff (loRegAt h 6) (loRegAt h 3) (loRegAt h 0)
  | true, true => .thumbLdshRegOff (loRegAt h 6) (loRegAt h 3) (loRegAt h 0)

/-- Format 9: B (bit 12) and L (bit 11): 00 STR, 01 LDR, 10 STRB, 11 LDRB (R140, R141). -/
def decodeThumbImmOff (h : Half) : Instr :=
  match h.getLsbD 12, h.getLsbD 11 with
  | false, false => .thumbStrImmOff (fieldAt h 6 5) (loRegAt h 3) (loRegAt h 0)
  | false, true => .thumbLdrImmOff (fieldAt h 6 5) (loRegAt h 3) (loRegAt h 0)
  | true, false => .thumbStrbImmOff (fieldAt h 6 5) (loRegAt h 3) (loRegAt h 0)
  | true, true => .thumbLdrbImmOff (fieldAt h 6 5) (loRegAt h 3) (loRegAt h 0)

/-- The instruction of a THUMB halfword: classify (R150), then cut the format's fields (R140). -/
def decodeThumb (h : Half) : Decoded :=
  match thumbRowOf h with
  | none => .error .thumbUnmatched
  | some fam =>
    match fam with
    | .moveShiftedRegister => .ok (decodeThumbShifted h)
    | .addSubtract => .ok (decodeThumbAddSub h)
    | .moveCompareAddSubtractImmediate => .ok (decodeThumbImm8 h)
    | .aluOperation => .ok (decodeThumbAlu h)
    | .hiRegisterOperationOrBranchExchange => .ok (decodeThumbHi h)
    | .pcRelativeLoad => .ok (.thumbLdrPc (loRegAt h 8) (fieldAt h 0 8))
    | .loadStoreRegisterOffset => .ok (decodeThumbRegOff h)
    | .loadStoreSignExtended => .ok (decodeThumbSignExt h)
    | .loadStoreImmediateOffset => .ok (decodeThumbImmOff h)
    | .loadStoreHalfword =>
      if h.getLsbD 11 then .ok (.thumbLdrhImmOff (fieldAt h 6 5) (loRegAt h 3) (loRegAt h 0))
      else .ok (.thumbStrhImmOff (fieldAt h 6 5) (loRegAt h 3) (loRegAt h 0))
    | .spRelativeLoadStore =>
      if h.getLsbD 11 then .ok (.thumbLdrSp (loRegAt h 8) (fieldAt h 0 8))
      else .ok (.thumbStrSp (loRegAt h 8) (fieldAt h 0 8))
    | .loadAddress =>
      if h.getLsbD 11 then .ok (.thumbAddSp (loRegAt h 8) (fieldAt h 0 8))
      else .ok (.thumbAddPc (loRegAt h 8) (fieldAt h 0 8))
    | .addOffsetToSp =>
      if h.getLsbD 7 then .ok (.thumbSpMinus (fieldAt h 0 7)) else .ok (.thumbSpPlus (fieldAt h 0 7))
    | .pushPop =>
      if h.getLsbD 11 then .ok (.thumbPop (h.getLsbD 8) (fieldAt h 0 8))
      else .ok (.thumbPush (h.getLsbD 8) (fieldAt h 0 8))
    | .multipleLoadStore =>
      if h.getLsbD 11 then .ok (.thumbLdmia (loRegAt h 8) (fieldAt h 0 8))
      else .ok (.thumbStmia (loRegAt h 8) (fieldAt h 0 8))
    | .conditionalBranch => .ok (.thumbBCond (fieldAt h 8 4) (fieldAt h 0 8))
    | .softwareInterrupt => .ok (.thumbSwi (fieldAt h 0 8))
    | .unconditionalBranch => .ok (.thumbB (fieldAt h 0 11))
    | .longBranchWithLink =>
      if h.getLsbD 11 then .ok (.thumbBlLow (fieldAt h 0 11)) else .ok (.thumbBlHigh (fieldAt h 0 11))
    | .undefined => .ok (.thumbUnd (fieldAt h 0 8))

/-! ## The decoded THUMB records (R421, R422) -/

/-- The decoded record of each THUMB family (R421). -/
inductive ThumbRecord where
  | moveShiftedRegister (op : BitVec 2) (offset5 : BitVec 5) (rs rd : LoReg)
  | addSubtract (i op : Bool) (rnOrImm3 : BitVec 3) (rs rd : LoReg)
  | moveCompareAddSubtractImmediate (op : BitVec 2) (rd : LoReg) (imm8 : BitVec 8)
  | aluOperation (op : BitVec 4) (rs rd : LoReg)
  | hiRegisterOperationOrBranchExchange (op : BitVec 2) (h1 h2 : Bool) (rs rd : Reg)
  | pcRelativeLoad (rd : LoReg) (word8 : BitVec 8)
  | loadStoreRegisterOffset (l b : Bool) (ro rb rd : LoReg)
  | loadStoreSignExtended (h s : Bool) (ro rb rd : LoReg)
  | loadStoreImmediateOffset (b l : Bool) (offset5 : BitVec 5) (rb rd : LoReg)
  | loadStoreHalfword (l : Bool) (offset5 : BitVec 5) (rb rd : LoReg)
  | spRelativeLoadStore (l : Bool) (rd : LoReg) (word8 : BitVec 8)
  | loadAddress (sp : Bool) (rd : LoReg) (word8 : BitVec 8)
  | addOffsetToSp (s : Bool) (sword7 : BitVec 7)
  | pushPop (l r : Bool) (rlist : BitVec 8)
  | multipleLoadStore (l : Bool) (rb : LoReg) (rlist : BitVec 8)
  | conditionalBranch (cond : BitVec 4) (soffset8 : BitVec 8)
  | softwareInterrupt (value8 : BitVec 8)
  | unconditionalBranch (offset11 : BitVec 11)
  | longBranchWithLink (h : Bool) (offset11 : BitVec 11)
  deriving DecidableEq, Repr

/-- A hi-register number: `r + 8 * h` (R421). -/
def hiReg (h : Bool) (r : LoReg) : Reg :=
  if h then ⟨r.val + 8, by omega⟩ else ⟨r.val, by omega⟩

/-- The decoded record of a halfword (R421); none where it classifies as Undefined. -/
def thumbRecord (h : Half) : Option ThumbRecord :=
  match classifyThumb h with
  | .moveShiftedRegister => some (.moveShiftedRegister (fieldAt h 11 2) (fieldAt h 6 5) (loRegAt h 3) (loRegAt h 0))
  | .addSubtract => some (.addSubtract (h.getLsbD 10) (h.getLsbD 9) (fieldAt h 6 3) (loRegAt h 3) (loRegAt h 0))
  | .moveCompareAddSubtractImmediate =>
    some (.moveCompareAddSubtractImmediate (fieldAt h 11 2) (loRegAt h 8) (fieldAt h 0 8))
  | .aluOperation => some (.aluOperation (fieldAt h 6 4) (loRegAt h 3) (loRegAt h 0))
  | .hiRegisterOperationOrBranchExchange =>
    some (.hiRegisterOperationOrBranchExchange (fieldAt h 8 2) (h.getLsbD 7) (h.getLsbD 6)
      (hiReg (h.getLsbD 6) (loRegAt h 3)) (hiReg (h.getLsbD 7) (loRegAt h 0)))
  | .pcRelativeLoad => some (.pcRelativeLoad (loRegAt h 8) (fieldAt h 0 8))
  | .loadStoreRegisterOffset =>
    some (.loadStoreRegisterOffset (h.getLsbD 11) (h.getLsbD 10) (loRegAt h 6) (loRegAt h 3) (loRegAt h 0))
  | .loadStoreSignExtended =>
    some (.loadStoreSignExtended (h.getLsbD 11) (h.getLsbD 10) (loRegAt h 6) (loRegAt h 3) (loRegAt h 0))
  | .loadStoreImmediateOffset =>
    some (.loadStoreImmediateOffset (h.getLsbD 12) (h.getLsbD 11) (fieldAt h 6 5) (loRegAt h 3) (loRegAt h 0))
  | .loadStoreHalfword => some (.loadStoreHalfword (h.getLsbD 11) (fieldAt h 6 5) (loRegAt h 3) (loRegAt h 0))
  | .spRelativeLoadStore => some (.spRelativeLoadStore (h.getLsbD 11) (loRegAt h 8) (fieldAt h 0 8))
  | .loadAddress => some (.loadAddress (h.getLsbD 11) (loRegAt h 8) (fieldAt h 0 8))
  | .addOffsetToSp => some (.addOffsetToSp (h.getLsbD 7) (fieldAt h 0 7))
  | .pushPop => some (.pushPop (h.getLsbD 11) (h.getLsbD 8) (fieldAt h 0 8))
  | .multipleLoadStore => some (.multipleLoadStore (h.getLsbD 11) (loRegAt h 8) (fieldAt h 0 8))
  | .conditionalBranch => some (.conditionalBranch (fieldAt h 8 4) (fieldAt h 0 8))
  | .softwareInterrupt => some (.softwareInterrupt (fieldAt h 0 8))
  | .unconditionalBranch => some (.unconditionalBranch (fieldAt h 0 11))
  | .longBranchWithLink => some (.longBranchWithLink (h.getLsbD 11) (fieldAt h 0 11))
  | .undefined => none

/-- The immediate in the assembler's units (R422), for the families that scale one. -/
def ThumbRecord.scaled : ThumbRecord → Option Word
  | .loadStoreImmediateOffset b _ o _ _ => some (o.setWidth 32 <<< (if b then 0 else 2))
  | .loadStoreHalfword _ o _ _ => some (o.setWidth 32 <<< 1)
  | .pcRelativeLoad _ w => some (w.setWidth 32 <<< 2)
  | .spRelativeLoadStore _ _ w => some (w.setWidth 32 <<< 2)
  | .loadAddress _ _ w => some (w.setWidth 32 <<< 2)
  | .addOffsetToSp s w => some (if s then -(w.setWidth 32 <<< 2) else w.setWidth 32 <<< 2)
  | .conditionalBranch _ o => some ((o.setWidth 9 <<< 1).signExtend 32)
  | .unconditionalBranch o => some ((o.setWidth 12 <<< 1).signExtend 32)
  | .longBranchWithLink h o =>
    some (if h then o.setWidth 32 <<< 1 else (o.setWidth 23 <<< 12).signExtend 32)
  | .moveShiftedRegister .. | .addSubtract .. | .moveCompareAddSubtractImmediate .. | .aluOperation ..
  | .hiRegisterOperationOrBranchExchange .. | .loadStoreRegisterOffset .. | .loadStoreSignExtended .. | .pushPop ..
  | .multipleLoadStore .. | .softwareInterrupt .. => none

/-! ## Opcodes and bytes -/

/-- An opcode: an ARM word or a THUMB halfword (R110). -/
inductive Code where
  | arm (w : Word)
  | thumb (h : Half)
  deriving DecidableEq, Repr

/-- The instruction of an opcode. -/
def decodeCode : Code → Decoded
  | .arm w => decodeArm w
  | .thumb h => decodeThumb h

/-- Little-endian composition of a word (R83). -/
def wordOfBytes (b0 b1 b2 b3 : Byte) : Word := b3 ++ b2 ++ b1 ++ b0

/-- Little-endian composition of a halfword (R83). -/
def halfOfBytes (b0 b1 : Byte) : Half := b1 ++ b0

/-- The opcode at the head of a byte list, and the rest: four bytes in ARM state, two in THUMB state (R95, R110). -/
def takeCode (thumb : Bool) : List Byte → Option (Code × List Byte)
  | b0 :: b1 :: rest =>
    if thumb then some (.thumb (halfOfBytes b0 b1), rest)
    else
      match rest with
      | b2 :: b3 :: rest' => some (.arm (wordOfBytes b0 b1 b2 b3), rest')
      | _ => none
  | _ => none

/-- The instruction at the head of a byte list, in the state the T bit selects (R110), with the rest of the list. -/
def decodeBytes (thumb : Bool) (bs : List Byte) : Except DecodeError (Instr × List Byte) :=
  match takeCode thumb bs with
  | none => .error .truncated
  | some (c, rest) =>
    match decodeCode c with
    | .ok i => .ok (i, rest)
    | .error e => .error e

/-- The little-endian bytes of an opcode, lowest address first (R83). -/
def Code.bytes : Code → List Byte
  | .arm w => [fieldAt w 0 8, fieldAt w 8 8, fieldAt w 16 8, fieldAt w 24 8]
  | .thumb h => [fieldAt h 0 8, fieldAt h 8 8]

/-- The opcode whose bits are `w`, numbered as spec/opcode_table.json numbers them: a row of 16 bits is a THUMB halfword, any other
an ARM word. -/
def tableCode (nbits w : Nat) : Code :=
  if nbits ≤ 16 then .thumb (BitVec.ofNat 16 (w % 2 ^ nbits)) else .arm (BitVec.ofNat 32 (w % 2 ^ nbits))

/-- What the decoder reads from a row of the opcode table: its bytes as the bus holds them, decoded in the state its length
selects. -/
def decodeTableWord (nbits w : Nat) : Option Instr :=
  match decodeBytes (decide (nbits ≤ 16)) (tableCode nbits w).bytes with
  | .ok (i, _) => some i
  | .error _ => none

/-! ## The encoder -/

/-- Bits 25 and 11:0 of a shifter operand (R114). -/
def ShifterOperand.bits : ShifterOperand → Word
  | .imm rot imm8 => 0x02000000 ||| place 8 rot ||| place 0 imm8
  | .immShift amount ty rm => place 7 amount ||| place 5 ty.code ||| placeReg 0 rm
  | .regShift rs ty rm => 0x00000010 ||| placeReg 8 rs ||| place 5 ty.code ||| placeReg 0 rm

/-- A data-processing word (R112, R113); `base` holds the opcode number at bits 24:21, and S where the row fixes it. -/
def encDp (base : Word) (c : Cond) (sf : Bool) (rn rd : Reg) (op : ShifterOperand) : Word :=
  base ||| place 28 c.code ||| placeBit 20 sf ||| placeReg 16 rn ||| placeReg 12 rd ||| op.bits

/-- A multiply word (R116). -/
def encMul (base : Word) (c : Cond) (sf : Bool) (r16 r12 rs rm : Reg) : Word :=
  base ||| place 28 c.code ||| placeBit 20 sf ||| placeReg 16 r16 ||| placeReg 12 r12 ||| placeReg 8 rs ||| placeReg 0 rm

/-- A swap word (R117). -/
def encSwp (base : Word) (c : Cond) (rn rd rm : Reg) : Word :=
  base ||| place 28 c.code ||| placeReg 16 rn ||| placeReg 12 rd ||| placeReg 0 rm

/-- Bits 25 and 11:0 of a mode-2 offset (R119). -/
def Offset2.bits : Offset2 → Word
  | .imm o => place 0 o
  | .reg amount ty rm => 0x02000000 ||| place 7 amount ||| place 5 ty.code ||| placeReg 0 rm

/-- A single-data-transfer word (R119); `base` holds B and L. -/
def encSingle (base : Word) (c : Cond) (idx : Index) (up : Bool) (rn rd : Reg) (off : Offset2) : Word :=
  base ||| place 28 c.code ||| placeBit 24 idx.p ||| placeBit 23 up ||| placeBit 21 idx.w ||| placeReg 16 rn ||| placeReg 12 rd
    ||| off.bits

/-- Bits 22, 11:8 and 3:0 of a mode-3 offset (R118, R227, R228). -/
def Offset3.bits : Offset3 → Word
  | .imm o => 0x00400000 ||| place 8 (fieldAt o 4 4) ||| place 0 (fieldAt o 0 4)
  | .reg rm => placeReg 0 rm

/-- A halfword-transfer word (R118); `base` holds L, SH and bits 7 and 4. -/
def encHalf (base : Word) (c : Cond) (idx : Index) (up : Bool) (rn rd : Reg) (off : Offset3) : Word :=
  base ||| place 28 c.code ||| placeBit 24 idx.p ||| placeBit 23 up ||| placeBit 21 idx.w ||| placeReg 16 rn ||| placeReg 12 rd
    ||| off.bits

/-- A block-transfer word (R121); `base` holds S and L. -/
def encBlock (base : Word) (c : Cond) (form : BlockForm) (wb : Bool) (rn : Reg) (list : BitVec 16) : Word :=
  base ||| place 28 c.code ||| placeBit 24 form.p ||| placeBit 23 form.u ||| placeBit 21 wb ||| placeReg 16 rn ||| place 0 list

/-- A branch or software-interrupt word (R122, R124). -/
def encImm24 (base : Word) (c : Cond) (imm24 : BitVec 24) : Word := base ||| place 28 c.code ||| place 0 imm24

/-- The word of the Undefined family (R120). -/
def encUnd (c : Cond) (hi : BitVec 20) (lo : BitVec 4) : Word := 0x06000010 ||| place 28 c.code ||| place 5 hi ||| place 0 lo

/-- CDP (R125). -/
def encCdp (c : Cond) (hi : BitVec 19) (lo : BitVec 4) : Word := 0x0E000000 ||| place 28 c.code ||| place 5 hi ||| place 0 lo

/-- MCR and MRC (R125); `base` holds bit 20. -/
def encMcr (base : Word) (c : Cond) (hi : BitVec 3) (mid : BitVec 15) (lo : BitVec 4) : Word :=
  base ||| place 28 c.code ||| place 21 hi ||| place 5 mid ||| place 0 lo

/-- STC and LDC (R125); `base` holds bit 20. -/
def encLdc (base : Word) (c : Cond) (hi : BitVec 4) (lo : BitVec 20) : Word :=
  base ||| place 28 c.code ||| place 21 hi ||| place 0 lo

/-- An MSR register word (R115); `base` holds R. -/
def encMsrReg (base : Word) (c : Cond) (mask : BitVec 4) (rm : Reg) : Word :=
  base ||| place 28 c.code ||| place 16 mask ||| placeReg 0 rm

/-- An MSR immediate word (R115); `base` holds R. -/
def encMsrImm (base : Word) (c : Cond) (mask rot : BitVec 4) (imm8 : BitVec 8) : Word :=
  base ||| place 28 c.code ||| place 16 mask ||| place 8 rot ||| place 0 imm8

/-- The opcode of an instruction: its row's fixed bits and every field at its place (R112 to R125, R140, R141). -/
def encode : Instr → Code
  | .and cond sf rn rd op => .arm (encDp 0x00000000 cond sf rn rd op)
  | .eor cond sf rn rd op => .arm (encDp 0x00200000 cond sf rn rd op)
  | .sub cond sf rn rd op => .arm (encDp 0x00400000 cond sf rn rd op)
  | .rsb cond sf rn rd op => .arm (encDp 0x00600000 cond sf rn rd op)
  | .add cond sf rn rd op => .arm (encDp 0x00800000 cond sf rn rd op)
  | .adc cond sf rn rd op => .arm (encDp 0x00A00000 cond sf rn rd op)
  | .sbc cond sf rn rd op => .arm (encDp 0x00C00000 cond sf rn rd op)
  | .rsc cond sf rn rd op => .arm (encDp 0x00E00000 cond sf rn rd op)
  | .tst cond rn sbzRd op => .arm (encDp 0x01100000 cond false rn sbzRd op)
  | .teq cond rn sbzRd op => .arm (encDp 0x01300000 cond false rn sbzRd op)
  | .cmp cond rn sbzRd op => .arm (encDp 0x01500000 cond false rn sbzRd op)
  | .cmn cond rn sbzRd op => .arm (encDp 0x01700000 cond false rn sbzRd op)
  | .orr cond sf rn rd op => .arm (encDp 0x01800000 cond sf rn rd op)
  | .mov cond sf sbzRn rd op => .arm (encDp 0x01A00000 cond sf sbzRn rd op)
  | .bic cond sf rn rd op => .arm (encDp 0x01C00000 cond sf rn rd op)
  | .mvn cond sf sbzRn rd op => .arm (encDp 0x01E00000 cond sf sbzRn rd op)
  | .mul cond sf rd sbzRn rs rm => .arm (encMul 0x00000090 cond sf rd sbzRn rs rm)
  | .mla cond sf rd rn rs rm => .arm (encMul 0x00200090 cond sf rd rn rs rm)
  | .umull cond sf rdHi rdLo rs rm => .arm (encMul 0x00800090 cond sf rdHi rdLo rs rm)
  | .umlal cond sf rdHi rdLo rs rm => .arm (encMul 0x00A00090 cond sf rdHi rdLo rs rm)
  | .smull cond sf rdHi rdLo rs rm => .arm (encMul 0x00C00090 cond sf rdHi rdLo rs rm)
  | .smlal cond sf rdHi rdLo rs rm => .arm (encMul 0x00E00090 cond sf rdHi rdLo rs rm)
  | .swp cond rn rd rm => .arm (encSwp 0x01000090 cond rn rd rm)
  | .swpb cond rn rd rm => .arm (encSwp 0x01400090 cond rn rd rm)
  | .ldr cond idx up rn rd off => .arm (encSingle 0x04100000 cond idx up rn rd off)
  | .str cond idx up rn rd off => .arm (encSingle 0x04000000 cond idx up rn rd off)
  | .ldrb cond idx up rn rd off => .arm (encSingle 0x04500000 cond idx up rn rd off)
  | .strb cond idx up rn rd off => .arm (encSingle 0x04400000 cond idx up rn rd off)
  | .ldrt cond up rn rd off => .arm (encSingle 0x04300000 cond .postW up rn rd off)
  | .strt cond up rn rd off => .arm (encSingle 0x04200000 cond .postW up rn rd off)
  | .ldrbt cond up rn rd off => .arm (encSingle 0x04700000 cond .postW up rn rd off)
  | .strbt cond up rn rd off => .arm (encSingle 0x04600000 cond .postW up rn rd off)
  | .ldrh cond idx up rn rd off => .arm (encHalf 0x001000B0 cond idx up rn rd off)
  | .strh cond idx up rn rd off => .arm (encHalf 0x000000B0 cond idx up rn rd off)
  | .ldrsb cond idx up rn rd off => .arm (encHalf 0x001000D0 cond idx up rn rd off)
  | .ldrsh cond idx up rn rd off => .arm (encHalf 0x001000F0 cond idx up rn rd off)
  | .ldmia cond wb rn list => .arm (encBlock 0x08100000 cond .ia wb rn list)
  | .ldmib cond wb rn list => .arm (encBlock 0x08100000 cond .ib wb rn list)
  | .ldmda cond wb rn list => .arm (encBlock 0x08100000 cond .da wb rn list)
  | .ldmdb cond wb rn list => .arm (encBlock 0x08100000 cond .db wb rn list)
  | .stmia cond wb rn list => .arm (encBlock 0x08000000 cond .ia wb rn list)
  | .stmib cond wb rn list => .arm (encBlock 0x08000000 cond .ib wb rn list)
  | .stmda cond wb rn list => .arm (encBlock 0x08000000 cond .da wb rn list)
  | .stmdb cond wb rn list => .arm (encBlock 0x08000000 cond .db wb rn list)
  | .ldmReturn cond form wb rn list => .arm (encBlock 0x08500000 cond form wb rn list)
  | .ldmUser cond form wb rn list => .arm (encBlock 0x08500000 cond form wb rn list)
  | .stmUser cond form wb rn list => .arm (encBlock 0x08400000 cond form wb rn list)
  | .b cond imm24 => .arm (encImm24 0x0A000000 cond imm24)
  | .bl cond imm24 => .arm (encImm24 0x0B000000 cond imm24)
  | .bx cond rm => .arm (0x012FFF10 ||| place 28 cond.code ||| placeReg 0 rm)
  | .mrs cond spsr rd => .arm (0x010F0000 ||| place 28 cond.code ||| placeBit 22 spsr ||| placeReg 12 rd)
  | .msrCpsrReg cond mask rm => .arm (encMsrReg 0x0120F000 cond mask rm)
  | .msrSpsrReg cond mask rm => .arm (encMsrReg 0x0160F000 cond mask rm)
  | .msrCpsrImm cond mask rot imm8 => .arm (encMsrImm 0x0320F000 cond mask rot imm8)
  | .msrSpsrImm cond mask rot imm8 => .arm (encMsrImm 0x0360F000 cond mask rot imm8)
  | .swi cond imm24 => .arm (encImm24 0x0F000000 cond imm24)
  | .und cond hi lo => .arm (encUnd cond hi lo)
  | .cdp cond hi lo => .arm (encCdp cond hi lo)
  | .mcr cond hi mid lo => .arm (encMcr 0x0E000010 cond hi mid lo)
  | .mrc cond hi mid lo => .arm (encMcr 0x0E100010 cond hi mid lo)
  | .stc cond hi lo => .arm (encLdc 0x0C000000 cond hi lo)
  | .ldc cond hi lo => .arm (encLdc 0x0C100000 cond hi lo)
  | .thumbLslImm offset5 rs rd => .thumb (0x0000 ||| place 6 offset5 ||| placeLo 3 rs ||| placeLo 0 rd)
  | .thumbLsrImm offset5 rs rd => .thumb (0x0800 ||| place 6 offset5 ||| placeLo 3 rs ||| placeLo 0 rd)
  | .thumbAsrImm offset5 rs rd => .thumb (0x1000 ||| place 6 offset5 ||| placeLo 3 rs ||| placeLo 0 rd)
  | .thumbAddReg rn rs rd => .thumb (0x1800 ||| placeLo 6 rn ||| placeLo 3 rs ||| placeLo 0 rd)
  | .thumbSubReg rn rs rd => .thumb (0x1A00 ||| placeLo 6 rn ||| placeLo 3 rs ||| placeLo 0 rd)
  | .thumbAddImm3 imm3 rs rd => .thumb (0x1C00 ||| place 6 imm3 ||| placeLo 3 rs ||| placeLo 0 rd)
  | .thumbSubImm3 imm3 rs rd => .thumb (0x1E00 ||| place 6 imm3 ||| placeLo 3 rs ||| placeLo 0 rd)
  | .thumbMovImm8 rd imm8 => .thumb (0x2000 ||| placeLo 8 rd ||| place 0 imm8)
  | .thumbCmpImm8 rd imm8 => .thumb (0x2800 ||| placeLo 8 rd ||| place 0 imm8)
  | .thumbAddImm8 rd imm8 => .thumb (0x3000 ||| placeLo 8 rd ||| place 0 imm8)
  | .thumbSubImm8 rd imm8 => .thumb (0x3800 ||| placeLo 8 rd ||| place 0 imm8)
  | .thumbAndAlu rs rd => .thumb (0x4000 ||| placeLo 3 rs ||| placeLo 0 rd)
  | .thumbEorAlu rs rd => .thumb (0x4040 ||| placeLo 3 rs ||| placeLo 0 rd)
  | .thumbLslAlu rs rd => .thumb (0x4080 ||| placeLo 3 rs ||| placeLo 0 rd)
  | .thumbLsrAlu rs rd => .thumb (0x40C0 ||| placeLo 3 rs ||| placeLo 0 rd)
  | .thumbAsrAlu rs rd => .thumb (0x4100 ||| placeLo 3 rs ||| placeLo 0 rd)
  | .thumbAdcAlu rs rd => .thumb (0x4140 ||| placeLo 3 rs ||| placeLo 0 rd)
  | .thumbSbcAlu rs rd => .thumb (0x4180 ||| placeLo 3 rs ||| placeLo 0 rd)
  | .thumbRorAlu rs rd => .thumb (0x41C0 ||| placeLo 3 rs ||| placeLo 0 rd)
  | .thumbTstAlu rs rd => .thumb (0x4200 ||| placeLo 3 rs ||| placeLo 0 rd)
  | .thumbNegAlu rs rd => .thumb (0x4240 ||| placeLo 3 rs ||| placeLo 0 rd)
  | .thumbCmpAlu rs rd => .thumb (0x4280 ||| placeLo 3 rs ||| placeLo 0 rd)
  | .thumbCmnAlu rs rd => .thumb (0x42C0 ||| placeLo 3 rs ||| placeLo 0 rd)
  | .thumbOrrAlu rs rd => .thumb (0x4300 ||| placeLo 3 rs ||| placeLo 0 rd)
  | .thumbMulAlu rs rd => .thumb (0x4340 ||| placeLo 3 rs ||| placeLo 0 rd)
  | .thumbBicAlu rs rd => .thumb (0x4380 ||| placeLo 3 rs ||| placeLo 0 rd)
  | .thumbMvnAlu rs rd => .thumb (0x43C0 ||| placeLo 3 rs ||| placeLo 0 rd)
  | .thumbAddHi h1 h2 rs rd => .thumb (0x4400 ||| placeBit 7 h1 ||| placeBit 6 h2 ||| placeLo 3 rs ||| placeLo 0 rd)
  | .thumbCmpHi h1 h2 rs rd => .thumb (0x4500 ||| placeBit 7 h1 ||| placeBit 6 h2 ||| placeLo 3 rs ||| placeLo 0 rd)
  | .thumbMovHi h1 h2 rs rd => .thumb (0x4600 ||| placeBit 7 h1 ||| placeBit 6 h2 ||| placeLo 3 rs ||| placeLo 0 rd)
  | .thumbBx h1 h2 rs rd => .thumb (0x4700 ||| placeBit 7 h1 ||| placeBit 6 h2 ||| placeLo 3 rs ||| placeLo 0 rd)
  | .thumbLdrPc rd word8 => .thumb (0x4800 ||| placeLo 8 rd ||| place 0 word8)
  | .thumbStrRegOff ro rb rd => .thumb (0x5000 ||| placeLo 6 ro ||| placeLo 3 rb ||| placeLo 0 rd)
  | .thumbStrbRegOff ro rb rd => .thumb (0x5400 ||| placeLo 6 ro ||| placeLo 3 rb ||| placeLo 0 rd)
  | .thumbLdrRegOff ro rb rd => .thumb (0x5800 ||| placeLo 6 ro ||| placeLo 3 rb ||| placeLo 0 rd)
  | .thumbLdrbRegOff ro rb rd => .thumb (0x5C00 ||| placeLo 6 ro ||| placeLo 3 rb ||| placeLo 0 rd)
  | .thumbStrhRegOff ro rb rd => .thumb (0x5200 ||| placeLo 6 ro ||| placeLo 3 rb ||| placeLo 0 rd)
  | .thumbLdsbRegOff ro rb rd => .thumb (0x5600 ||| placeLo 6 ro ||| placeLo 3 rb ||| placeLo 0 rd)
  | .thumbLdrhRegOff ro rb rd => .thumb (0x5A00 ||| placeLo 6 ro ||| placeLo 3 rb ||| placeLo 0 rd)
  | .thumbLdshRegOff ro rb rd => .thumb (0x5E00 ||| placeLo 6 ro ||| placeLo 3 rb ||| placeLo 0 rd)
  | .thumbStrImmOff offset5 rb rd => .thumb (0x6000 ||| place 6 offset5 ||| placeLo 3 rb ||| placeLo 0 rd)
  | .thumbLdrImmOff offset5 rb rd => .thumb (0x6800 ||| place 6 offset5 ||| placeLo 3 rb ||| placeLo 0 rd)
  | .thumbStrbImmOff offset5 rb rd => .thumb (0x7000 ||| place 6 offset5 ||| placeLo 3 rb ||| placeLo 0 rd)
  | .thumbLdrbImmOff offset5 rb rd => .thumb (0x7800 ||| place 6 offset5 ||| placeLo 3 rb ||| placeLo 0 rd)
  | .thumbStrhImmOff offset5 rb rd => .thumb (0x8000 ||| place 6 offset5 ||| placeLo 3 rb ||| placeLo 0 rd)
  | .thumbLdrhImmOff offset5 rb rd => .thumb (0x8800 ||| place 6 offset5 ||| placeLo 3 rb ||| placeLo 0 rd)
  | .thumbStrSp rd word8 => .thumb (0x9000 ||| placeLo 8 rd ||| place 0 word8)
  | .thumbLdrSp rd word8 => .thumb (0x9800 ||| placeLo 8 rd ||| place 0 word8)
  | .thumbAddPc rd word8 => .thumb (0xA000 ||| placeLo 8 rd ||| place 0 word8)
  | .thumbAddSp rd word8 => .thumb (0xA800 ||| placeLo 8 rd ||| place 0 word8)
  | .thumbSpPlus sword7 => .thumb (0xB000 ||| place 0 sword7)
  | .thumbSpMinus sword7 => .thumb (0xB080 ||| place 0 sword7)
  | .thumbPush r rlist => .thumb (0xB400 ||| placeBit 8 r ||| place 0 rlist)
  | .thumbPop r rlist => .thumb (0xBC00 ||| placeBit 8 r ||| place 0 rlist)
  | .thumbStmia rb rlist => .thumb (0xC000 ||| placeLo 8 rb ||| place 0 rlist)
  | .thumbLdmia rb rlist => .thumb (0xC800 ||| placeLo 8 rb ||| place 0 rlist)
  | .thumbBCond cond soffset8 => .thumb (0xD000 ||| place 8 cond ||| place 0 soffset8)
  | .thumbSwi value8 => .thumb (0xDF00 ||| place 0 value8)
  | .thumbUnd value8 => .thumb (0xDE00 ||| place 0 value8)
  | .thumbB offset11 => .thumb (0xE000 ||| place 0 offset11)
  | .thumbBlHigh offset11 => .thumb (0xF000 ||| place 0 offset11)
  | .thumbBlLow offset11 => .thumb (0xF800 ||| place 0 offset11)

/-- The bytes of an instruction as the bus holds them. -/
def encodeBytes (i : Instr) : List Byte := (encode i).bytes

end Sys2Proof
end

