-- ==== Sys2Proof/Machine/Condition.lean ====
section
/-! DEFINITION. The Condition Evaluator (R170 to R172). -/

namespace Sys2Proof.Machine

/-- The condition table (R171) over N, Z, C, V; the reserved code 1111 never passes (R172). -/
def condTest (c : Cond) (n z cf v : Bool) : Bool :=
  match c with
  | .eq => z
  | .ne => !z
  | .cs => cf
  | .cc => !cf
  | .mi => n
  | .pl => !n
  | .vs => v
  | .vc => !v
  | .hi => cf && !z
  | .ls => !cf || z
  | .ge => n == v
  | .lt => n != v
  | .gt => !z && (n == v)
  | .le => z || (n != v)
  | .al => true
  | .nv => false

/-- The Condition Evaluator on a CPSR: N, Z, C, V are bits 31 to 28 (R45, R170). -/
def condPasses (c : Cond) (cpsr : Word) : Bool :=
  condTest c (cpsr.getLsbD 31) (cpsr.getLsbD 30) (cpsr.getLsbD 29) (cpsr.getLsbD 28)

/-- passes(opcode, flags) (R170). -/
def passes (opcode cpsr : Word) : Bool := condPasses (condOf opcode) cpsr

end Sys2Proof.Machine
end

