-- ==== Sys2Proof/Config.lean ====
section
/-! DEFINITION. What the spec leaves to an implementation: the values of the named parameters of R11, what unwritten memory reads as, and the free flag values of R331. -/

namespace Sys2Proof

/-- PC_READ_MODEL (R11, R12): what an instruction reads when it names r15 as a source. -/
inductive PcReadModel where
  /-- the PC slot unchanged (default, normative) -/
  | plain
  /-- the PC slot plus 8, plus 12 in the cases of R197, R231 and R291 -/
  | pipelined
  deriving DecidableEq, Repr

/-- MULS_C_POLICY (R11, R331): C (and V of the long forms) after a flag-setting multiply. -/
inductive MulsCPolicy where
  /-- kept (default) -/
  | unchanged
  /-- a free value of the step -/
  | draw
  deriving DecidableEq, Repr

/-- TRAP_POLICY (R11, R455): what an Undefined word or a software interrupt does. -/
inductive TrapPolicy where
  /-- the step returns the outcome and changes nothing (default, normative) -/
  | report
  /-- the step performs the exception entry of R460 and ends with Next -/
  | enter
  deriving DecidableEq, Repr

/-- DESIGN CHOICE, unsafe (log entry 1): what a byte of memory reads as that nothing has written. -/
def Config.unwrittenByte : Byte := 0

/-- The free flag values of MULS_C_POLICY = Draw (R331), one for each draw of the run (log entry 6). It has no body: nothing
can be proved of a value of it. -/
opaque Config.freeFlag : Nat → Bool

end Sys2Proof
end

