-- ==== Sys2Proof/Machine/State.lean ====
section
/-! DEFINITION. The state of the CORE as plain data (R30 to R53), why a step can stop (R450), and the state after reset (R490). -/

namespace Sys2Proof.Machine

/-- The seven processor modes (R34). -/
inductive Mode where
  | user | fiq | irq | supervisor | abort | undefined | system
  deriving DecidableEq, Repr

/-- A physical slot of the Register Bank, numbered as R30 numbers them. -/
abbrev Slot := Fin 37

/-- Slot 30: r15, the PC (R30). -/
abbrev pcSlot : Slot := 30

/-- Slot 31: the CPSR (R30). -/
abbrev cpsrSlot : Slot := 31

/-- The direction of a bus access (R80). -/
inductive Dir where
  | read | write
  deriving DecidableEq, Repr

/-- A range of addresses, `first` to `last`, where `bus_ok` is false for the marked directions (R80, log entry 5). -/
structure BusHole where
  first : Word
  last : Word
  read : Bool
  write : Bool
  deriving DecidableEq, Repr

/-- The bytes of the bus that differ from what an unlisted address reads as, at rising addresses (R80, R93; Memory.wf). -/
abbrev Memory := List Host.Cell

/-- The reason an Unpredictable outcome records (R450 code 5), each with the rule that raises it. -/
inductive Unpredictability where
  /-- R197: a register-specified shift with Rs = 15 -/
  | rsIsPc
  /-- R224, R228: a register offset with Rm = 15 -/
  | rmIsPc
  /-- R225: writeback with Rn = 15 -/
  | writebackToPc
  /-- R242: a load with writeback and Rn = Rd -/
  | baseIsDestination
  /-- R229: mode 3 with P = 0 and W = 1 -/
  | mode3PostIndexedW
  /-- R232 -/
  | ldrbToPc
  /-- R233 -/
  | strbOfPc
  /-- R236 -/
  | ldrhToPc
  /-- R237 -/
  | strhOfPc
  /-- R238 -/
  | ldrsbToPc
  /-- R239 -/
  | ldrshToPc
  /-- R89 -/
  | misalignedHalfword
  /-- R241 -/
  | swpPcOperand
  /-- R241 -/
  | swpBaseOverlap
  /-- R284 -/
  | emptyList
  /-- R284 -/
  | pcAsBase
  /-- R286 -/
  | ldmWritebackBaseInList
  /-- R287 -/
  | stmWritebackBaseNotLowest
  /-- R292 -/
  | userLdmWriteback
  /-- R292 -/
  | userLdmInUserOrSystem
  /-- R293 -/
  | userStmWriteback
  /-- R293 -/
  | userStmInUserOrSystem
  /-- R330 -/
  | mulPcOperand
  /-- R330 -/
  | mulRdIsRm
  /-- R332 -/
  | mlaPcOperand
  /-- R332 -/
  | mlaRdIsRm
  /-- R333 -/
  | longMulPcOperand
  /-- R333 -/
  | longMulOverlap
  /-- R354: a test instruction with Rd = 15 -/
  | testRdIsPc
  /-- R390 -/
  | mrsToPc
  /-- R391 -/
  | msrFromPc
  /-- R393 -/
  | msrChangesT
  /-- R51, R372, R393: a mode field that is none of the seven modes -/
  | invalidMode
  /-- R42: a PC write that is not aligned for the instruction set after the instruction -/
  | misalignedPcWrite
  deriving DecidableEq, Repr

/-- The access an InvalidModeAccess outcome records (R48, R450 code 3). -/
inductive SpsrAccess where
  /-- "SPSR read in User or System mode" -/
  | read
  /-- "SPSR write in User or System mode" -/
  | write
  deriving DecidableEq, Repr

/-- Why the machine stops with a fault: the outcomes of R450 other than Next and Refused, each recording what R450 says it
records, and one stop that is no outcome of the CORE. Each changes no state (R450, R453). -/
inductive Fault where
  /-- R450 code 1, under TRAP_POLICY = Report: raised by UND, the coprocessor rows and the illegal words of R133 (R410 to R412).
  Safe: the spec ends the step so, and the driver decides. -/
  | undefined (word : Word)
  /-- R450 code 2, under TRAP_POLICY = Report: raised by SWI (R400). Safe: the spec ends the step so. -/
  | softwareInterrupt (imm24 : BitVec 24)
  /-- R450 code 3: raised by MRS and MSR of an SPSR, and the exception returns of data processing and LDM, in User or System mode
  (R48, R290, R372, R390, R395). Safe: the spec ends the step so. -/
  | invalidModeAccess (access : SpsrAccess)
  /-- R450 code 4: raised by every load, store, block transfer and swap that would touch a byte where bus_ok is false (R92).
  Safe: the spec ends the step so. -/
  | busError (address : Word) (dir : Dir)
  /-- R450 code 5: an UNPREDICTABLE encoding, operand or produced value; the reason names the rule and so the instructions that
  raise it (D13). Safe: the spec ends the step so. -/
  | unpredictable (reason : Unpredictability)
  /-- No outcome of the CORE: the driver's fetch of the opcode met a bus error, which R95 makes the driver's concern. Raised by
  `step` in ARM state only. Safe: the machine stops where a driver may go on (log entry 7). -/
  | fetchBusError (address : Word)
  deriving DecidableEq, Repr

/-- Why an instruction is refused. -/
inductive Refusal where
  /-- Raised by an arm of `exec` whose instruction has no meaning in this model; there is none. Safe. -/
  | notModelled (mnemonic : String)
  /-- R440, R450 code 6: the step found T = 1, or the instruction is a THUMB instruction. Raised by every THUMB instruction and by
  every step in THUMB state. Safe: the spec refuses it. -/
  | thumbExecution
  deriving DecidableEq, Repr

/-- The state of the machine. -/
structure State where
  /-- the 37 physical slots of the Register Bank: registers, PC, CPSR and SPSRs (R30) -/
  phys : Vector Word 37
  /-- the mapping table in force: the mode whose slots r8..r14 and the SPSR pointer address (R35, R36, R52) -/
  mode : Mode
  /-- the bytes behind the bus (R80, R81, R93) -/
  mem : Memory
  /-- where bus_ok is false: part of the BUS parameter, never written by a step (R11, R80) -/
  busHoles : List BusHole
  /-- PC_READ_MODEL, never written by a step (R11, R12) -/
  pcReadModel : PcReadModel
  /-- MULS_C_POLICY, never written by a step (R11, R331) -/
  mulsCPolicy : MulsCPolicy
  /-- TRAP_POLICY, never written by a step (R11, R455) -/
  trapPolicy : TrapPolicy
  /-- the model's own counter of the free flag values drawn under MULS_C_POLICY = Draw (log entry 6) -/
  draws : Nat
  deriving DecidableEq, Repr

/-- The parameters of the reset operation (R490). -/
structure ResetParams where
  pc : Word
  spUsr : Word
  spIrq : Word
  spUnd : Word
  mode : Mode
  i : Bool
  f : Bool
  deriving DecidableEq, Repr

/-- The parameter set of the model's own reset: the first row of 95_test_vectors.md V13 (DESIGN CHOICE, unsafe, log entry 2). -/
def ResetParams.chosen : ResetParams :=
  { pc := 0x08000000, spUsr := 0x03007F00, spIrq := 0x03007FA0, spUnd := 0x03007FF0, mode := .system, i := false, f := false }

/-- The machine right after reset (R53, R490): ARM state, CPSR bits 26:8 zero, the mapping table of RESET_MODE, the parameters of
R11 at their defaults. The reset parameters are `ResetParams.chosen`; every slot the spec leaves unspecified is 0 (DESIGN CHOICE,
unsafe, log entry 3); no byte of memory is listed (log entry 1) and bus_ok is true everywhere (log entry 5). -/
def State.reset : State :=
  { phys := #v[0, 0, 0, 0, 0, 0, 0, 0,  0, 0, 0, 0, 0,  0, 0, 0, 0, 0,  0x03007F00, 0,  0, 0,  0x03007FA0, 0,  0, 0,  0, 0,
      0x03007FF0, 0,  0x08000000,  0x0000001F,  0, 0, 0, 0, 0]
    mode := .system
    mem := []
    busHoles := []
    pcReadModel := .plain
    mulsCPolicy := .unchanged
    trapPolicy := .report
    draws := 0 }

end Sys2Proof.Machine
end

