-- ==== Sys2Proof/Machine/Memory.lean ====
section
/-! DEFINITION. The byte store behind the bus (R80, R93) as a list in one canonical form: addresses strictly rising and inside the
32-bit space, and no entry equal to what an unlisted address reads as. -/

namespace Sys2Proof.Machine

/-- The byte at an address. -/
def Memory.read : Memory → Nat → Byte
  | [], _ => Config.unwrittenByte
  | (b, v) :: rest, a => if a = b then v else if a < b then Config.unwrittenByte else Memory.read rest a

/-- The cell of an address, unless it holds what an unlisted address reads as. -/
def Memory.cell (a : Nat) (v : Byte) (rest : Memory) : Memory :=
  if v = Config.unwrittenByte then rest else (a, v) :: rest

/-- Memory with one byte written. -/
def Memory.write : Memory → Nat → Byte → Memory
  | [], a, v => Memory.cell a v []
  | (b, w) :: rest, a, v =>
    if a = b then Memory.cell a v rest
    else if a < b then Memory.cell a v ((b, w) :: rest)
    else (b, w) :: Memory.write rest a v

/-- Every address of the list is at least `lo`, strictly rising, inside the 32-bit space, and no byte is the unlisted one. -/
def Memory.wfFrom : Nat → Memory → Bool
  | _, [] => true
  | lo, (a, v) :: rest =>
    decide (lo ≤ a) && decide (a < 2 ^ 32) && decide (v ≠ Config.unwrittenByte) && Memory.wfFrom (a + 1) rest

/-- The canonical form. -/
def Memory.wf (m : Memory) : Bool := Memory.wfFrom 0 m

end Sys2Proof.Machine
end

