-- ==== Sys2Proof/Machine/Ops.lean ====
section
/-! DEFINITION. The operations every instruction shares: the Register Bank and its mapping (R30 to R39), the PC (R40 to R44), the
status registers (R45 to R51), the bus (R80 to R93), the condition gate and the PC advance (R173, R175), taking an exception (R460)
and returning from one (R372). -/

namespace Sys2Proof.Machine

/-- What a step answers. -/
abbrev Result := Host.Outcome State Fault Refusal

/-! ## Modes and the mapping table -/

/-- The 5-bit encoding of a mode (R34). -/
def Mode.bits : Mode → BitVec 5
  | .user => 0x10
  | .fiq => 0x11
  | .irq => 0x12
  | .supervisor => 0x13
  | .abort => 0x17
  | .undefined => 0x1B
  | .system => 0x1F

/-- The mode of a 5-bit field; none for an invalid one (R34, R51). -/
def Mode.ofBits (b : BitVec 5) : Option Mode :=
  if b = 0x10 then some .user
  else if b = 0x11 then some .fiq
  else if b = 0x12 then some .irq
  else if b = 0x13 then some .supervisor
  else if b = 0x17 then some .abort
  else if b = 0x1B then some .undefined
  else if b = 0x1F then some .system
  else none

/-- The privilege column of R34 and R475. -/
def Mode.privileged : Mode → Bool
  | .user => false
  | .fiq | .irq | .supervisor | .abort | .undefined | .system => true

/-- Map(m, 13) (R35); Map(m, 14) is the next slot. -/
def Mode.spSlot : Mode → Slot
  | .user | .system => 18
  | .fiq => 20
  | .irq => 22
  | .supervisor => 24
  | .abort => 26
  | .undefined => 28

/-- Map(m, i) for r0..r15 (R35). Map(m, 16) is `cpsrSlot`. -/
def mapReg (m : Mode) (i : Reg) : Slot :=
  if i.val < 8 then ⟨i.val, by omega⟩
  else if i.val < 13 then
    if m = .fiq then ⟨i.val + 5, by omega⟩ else ⟨i.val, by omega⟩
  else if i.val = 13 then m.spSlot
  else if i.val = 14 then m.spSlot + 1
  else pcSlot

/-- SpsrSlot(m) (R35); none for User and System. -/
def spsrSlot : Mode → Option Slot
  | .fiq => some 32
  | .irq => some 33
  | .supervisor => some 34
  | .abort => some 35
  | .undefined => some 36
  | .user | .system => none

/-! ## Slots, registers and the PC -/

/-- The value of a physical slot. -/
def State.slot (s : State) (k : Slot) : Word := s.phys[k]

/-- The state with one physical slot written. -/
def State.setSlot (s : State) (k : Slot) (v : Word) : State := { s with phys := s.phys.set k v }

/-- The PC slot (R41). -/
def State.pc (s : State) : Word := s.slot pcSlot

/-- The CPSR. -/
def State.cpsr (s : State) : Word := s.slot cpsrSlot

/-- Bit 31 of the CPSR (R45). -/
def State.n (s : State) : Bool := s.cpsr.getLsbD 31

/-- Bit 30 of the CPSR (R45). -/
def State.z (s : State) : Bool := s.cpsr.getLsbD 30

/-- Bit 29 of the CPSR (R45). -/
def State.c (s : State) : Bool := s.cpsr.getLsbD 29

/-- Bit 28 of the CPSR (R45). -/
def State.v (s : State) : Bool := s.cpsr.getLsbD 28

/-- Bit 5 of the CPSR: THUMB state (R45). -/
def State.t (s : State) : Bool := s.cpsr.getLsbD 5

/-- The PC read value (R12, R40); `late` marks the reads that are 12 ahead under Pipelined: the operands of a register-specified
shift (R197) and the stored r15 (R231, R291). -/
def State.pcRead (s : State) (late : Bool) : Word :=
  match s.pcReadModel with
  | .plain => s.pc
  | .pipelined => if late then s.pc + 12 else s.pc + 8

/-- Register read through the mapping of a given mode (R37, R39). -/
def State.regIn (s : State) (m : Mode) (i : Reg) (late : Bool) : Word :=
  if i = 15 then s.pcRead late else s.slot (mapReg m i)

/-- x[i] (R37). -/
def State.reg (s : State) (i : Reg) : Word := s.regIn s.mode i false

/-- x[i] where r15 reads 12 ahead under Pipelined (R197, R231, R291). -/
def State.regLate (s : State) (i : Reg) : Word := s.regIn s.mode i true

/-- xu[i]: through the User-mode mapping (R39), as STM stores it (R291, R293). -/
def State.userReg (s : State) (i : Reg) : Word := s.regIn .user i true

/-- x[i] <- v for i in 0..14 (R38). A write of r15 is `pcWrite`. -/
def State.setReg (s : State) (i : Reg) (v : Word) : State := s.setSlot (mapReg s.mode i) v

/-- xu[i] <- v for i in 0..14 (R39). -/
def State.setUserReg (s : State) (i : Reg) (v : Word) : State := s.setSlot (mapReg .user i) v

/-- The PC slot written, with no check. -/
def State.setPc (s : State) (v : Word) : State := s.setSlot pcSlot v

/-- The PC advance of R43, modulo 2^32 (R44). -/
def State.advance (s : State) : State := s.setPc (s.pc + 4)

/-- Whether a PC write's value is aligned for ARM (`t` = 0) or THUMB state (R42). -/
def pcAligned (t : Bool) (v : Word) : Bool :=
  if t then !v.getLsbD 0 else !v.getLsbD 0 && !v.getLsbD 1

/-- A PC write, checked against the T bit of the state the instruction leaves (R42). It ends the instruction: r15 was written, so no
advance follows (R43). -/
def pcWrite (v : Word) (s : State) : Result :=
  if pcAligned s.t v then .next (s.setPc v) else .fault (.unpredictable .misalignedPcWrite)

/-- The end of an instruction whose destination is `rd`: a PC write for r15, else the register and the advance (R38, R42, R43). -/
def finish (rd : Reg) (v : Word) (s : State) : Result :=
  if rd = 15 then pcWrite v s else .next ((s.setReg rd v).advance)

/-! ## Status registers -/

/-- Every bit of a PSR that is stored: all but the reserved bits 26:8 (R49). -/
def psrMask : Word := 0xF80000FF

/-- The CPSR slot written, bits 26:8 ignored (R49). Its mode field must be that of the mapping table; `enterMode` changes it. -/
def State.setCpsr (s : State) (v : Word) : State := s.setSlot cpsrSlot (v &&& psrMask)

/-- A PSR with N, Z, C, V replaced and every other bit kept (R50). -/
def withNzcv (w : Word) (n z c v : Bool) : Word :=
  placeBit 31 n ||| placeBit 30 z ||| placeBit 29 c ||| placeBit 28 v ||| (w &&& 0x0FFFFFFF)

/-- A PSR with one bit replaced (R50). -/
def withBit (w : Word) (k : Nat) (b : Bool) : Word := (w &&& ~~~(place k 1#1)) ||| placeBit k b

/-- A PSR with its mode field replaced (R50). -/
def withMode (w : Word) (m : Mode) : Word := (w &&& 0xFFFFFFE0) ||| place 0 m.bits

/-- N, Z, C, V of the CPSR written (R46, R50). -/
def State.setNzcv (s : State) (n z c v : Bool) : State := s.setSlot cpsrSlot (withNzcv s.cpsr n z c v)

/-- enter_mode(m): the CPSR's mode field and the mapping table, in one action; no other slot changes (R36). -/
def State.enterMode (s : State) (m : Mode) : State :=
  { s.setSlot cpsrSlot (withMode s.cpsr m) with mode := m }

/-- A CPSR write that names the mode `m`: enter_mode, then the other fields (R51). -/
def State.loadCpsr (s : State) (m : Mode) (v : Word) : State := (s.enterMode m).setCpsr v

/-- The current mode's SPSR; none in User and System mode (R48). -/
def State.curSpsr (s : State) : Option Word := (spsrSlot s.mode).map s.slot

/-- The current mode's SPSR written, bits 26:8 ignored (R48, R49); in User and System mode there is none and nothing is written. -/
def State.setSpsr (s : State) (v : Word) : State :=
  match spsrSlot s.mode with
  | some k => s.setSlot k (v &&& psrMask)
  | none => s

/-- RestoreCpsrFromSpsr() (R372). -/
def restoreCpsr (s : State) : Except Fault State :=
  match s.curSpsr with
  | none => .error (.invalidModeAccess .read)
  | some v =>
    match Mode.ofBits (fieldAt v 0 5) with
    | none => .error (.unpredictable .invalidMode)
    | some m => .ok (s.loadCpsr m v)

/-- The return from an exception (R353, R372, R465): the CPSR from the current SPSR, then a PC write checked against the restored T
bit; if either fails nothing is changed. -/
def exceptionReturn (target : Word) (s : State) : Result :=
  match restoreCpsr s with
  | .error f => .fault f
  | .ok s' => pcWrite target s'

/-! ## The bus -/

/-- Whether a hole covers a byte access. -/
def BusHole.covers (h : BusHole) (a : Word) (d : Dir) : Bool :=
  decide (h.first.toNat ≤ a.toNat) && decide (a.toNat ≤ h.last.toNat) &&
    (match d with
     | .read => h.read
     | .write => h.write)

/-- bus_ok(address, dir) (R80). -/
def State.busOk (s : State) (a : Word) (d : Dir) : Bool := !(s.busHoles.any (fun h => h.covers a d))

/-- read_byte (R80). -/
def State.readByte (s : State) (a : Word) : Byte := s.mem.read a.toNat

/-- write_byte (R80). -/
def State.writeByte (s : State) (a : Word) (v : Byte) : State := { s with mem := s.mem.write a.toNat v }

/-- Align4 (R14). -/
def align4 (a : Word) : Word := a &&& 0xFFFFFFFC

/-- MemRead(a, 2), little-endian (R83). -/
def State.readHalf (s : State) (a : Word) : Half := halfOfBytes (s.readByte a) (s.readByte (a + 1))

/-- MemRead(a, 4), little-endian (R83). -/
def State.readWord (s : State) (a : Word) : Word :=
  wordOfBytes (s.readByte a) (s.readByte (a + 1)) (s.readByte (a + 2)) (s.readByte (a + 3))

/-- MemWrite(a, 2, v) (R83). -/
def State.writeHalf (s : State) (a : Word) (v : Half) : State :=
  (s.writeByte a (fieldAt v 0 8)).writeByte (a + 1) (fieldAt v 8 8)

/-- MemWrite(a, 4, v) (R83). -/
def State.writeWord (s : State) (a : Word) (v : Word) : State :=
  (((s.writeByte a (fieldAt v 0 8)).writeByte (a + 1) (fieldAt v 8 8)).writeByte (a + 2) (fieldAt v 16 8)).writeByte (a + 3)
    (fieldAt v 24 8)

/-- A word load: the aligned word, rotated so that the addressed byte lands in bits 7:0 (R87). -/
def State.loadRotated (s : State) (a : Word) : Word := (s.readWord (align4 a)).rotateRight (8 * (fieldAt a 0 2).toNat)

/-- The bytes of an access of `n` bytes, in ascending order (R92, R96). -/
def bytesFrom (a : Word) : Nat → List Word
  | 0 => []
  | n + 1 => a :: bytesFrom (a + 1) n

/-- The bus pre-check: the first byte address that is not ok ends the step with BusError (R92); else `k` follows. -/
def busCheck (s : State) (d : Dir) (as : List Word) (k : Result) : Result :=
  match as.find? (fun a => !s.busOk a d) with
  | some a => .fault (.busError a d)
  | none => k

/-! ## The gate -/

/-- The first stage of the ARM step (R175): in THUMB state the step is refused before anything else (R440); a failed condition only
advances the PC (R173); else the family's rule runs. -/
def armInstr (c : Cond) (s : State) (body : Result) : Result :=
  if s.t then .refused .thumbExecution
  else if condPasses c s.cpsr then body
  else .next s.advance

/-! ## Taking an exception (R460) -/

/-- The kinds of exception entry (R460). -/
inductive ExceptionKind where
  | und | swi | pabt | dabt | irq | fiq
  deriving DecidableEq, Repr

/-- The vector of a kind (R460). -/
def ExceptionKind.vector : ExceptionKind → Word
  | .und => 0x00000004
  | .swi => 0x00000008
  | .pabt => 0x0000000C
  | .dabt => 0x00000010
  | .irq => 0x00000018
  | .fiq => 0x0000001C

/-- The mode a kind enters (R460). -/
def ExceptionKind.mode : ExceptionKind → Mode
  | .und => .undefined
  | .swi => .supervisor
  | .pabt | .dabt => .abort
  | .irq => .irq
  | .fiq => .fiq

/-- What r14 of the new mode receives beyond the PC slot (R460). -/
def ExceptionKind.link : ExceptionKind → Word
  | .dabt => 8
  | .und | .swi | .pabt | .irq | .fiq => 4

/-- The CPSR of an exception entry: the mode of the kind, T clear, I set, F set for FIQ, the rest kept (R460). -/
def ExceptionKind.cpsr (kind : ExceptionKind) (old : Word) : Word :=
  let w := withBit (withBit (withMode old kind.mode) 5 false) 7 true
  match kind with
  | .fiq => withBit w 6 true
  | .und | .swi | .pabt | .dabt | .irq => w

/-- EnterException(kind) (R460): enter_mode, SPSR and r14 of the new mode, T, I, F, and the PC at the vector, in one action. -/
def enterException (kind : ExceptionKind) (s : State) : State :=
  let old := s.cpsr
  let link := s.pc + kind.link
  ((((s.enterMode kind.mode).setSpsr old).setReg 14 link).setCpsr (kind.cpsr old)).setPc kind.vector

/-- What an Undefined word does once its condition has passed (R410 to R412, R455). -/
def undefinedTrap (word : Word) (s : State) : Result :=
  match s.trapPolicy with
  | .report => .fault (.undefined word)
  | .enter => .next (enterException .und s)

/-- What a software interrupt does once its condition has passed (R400, R455). -/
def softwareTrap (imm24 : BitVec 24) (s : State) : Result :=
  match s.trapPolicy with
  | .report => .fault (.softwareInterrupt imm24)
  | .enter => .next (enterException .swi s)

/-- A word the decoder rejects: a family-specific illegal sub-encoding (R133), gated by its condition like every ARM word (R174) and
then handled as Undefined (R411). -/
def illegalWord (word : Word) (s : State) : Result := armInstr (condOf word) s (undefinedTrap word s)

/-- A THUMB instruction is refused, whatever it is (R440). -/
def thumbRefused (_s : State) : Result := .refused .thumbExecution

/-! ## Outcomes by number -/

/-- The numeric code of an outcome (R450, D34); none for the stops that are no outcome of the CORE. -/
def outcomeCode : Result → Option Nat
  | .next _ => some 0
  | .fault (.undefined _) => some 1
  | .fault (.softwareInterrupt _) => some 2
  | .fault (.invalidModeAccess _) => some 3
  | .fault (.busError _ _) => some 4
  | .fault (.unpredictable _) => some 5
  | .refused .thumbExecution => some 6
  | .fault (.fetchBusError _) => none
  | .refused _ => none

end Sys2Proof.Machine
end

