-- ==== Sys2Proof/Machine/Branch.lean ====
section
/-! DEFINITION. Branches (R310 to R312). -/

namespace Sys2Proof.Machine

/-- x[15] + lsl(sext_24(imm24), 2) (R310). -/
def branchTarget (imm24 : BitVec 24) (s : State) : Word := s.reg 15 + (imm24.signExtend 32 <<< 2)

/-- B (R310). -/
def execB (cond : Cond) (imm24 : BitVec 24) (s : State) : Result := armInstr cond s (pcWrite (branchTarget imm24 s) s)

/-- BL: the link is the address of the next instruction, from the PC slot itself (R311). -/
def execBl (cond : Cond) (imm24 : BitVec 24) (s : State) : Result :=
  armInstr cond s (pcWrite (branchTarget imm24 s) (s.setReg 14 (s.pc + 4)))

/-- cpsr.T <- t (R50, R312). -/
def State.setT (s : State) (t : Bool) : State := s.setSlot cpsrSlot (withBit s.cpsr 5 t)

/-- BX: T from bit 0 of the target, then a PC write checked against the new T (R312). -/
def execBx (cond : Cond) (rm : Reg) (s : State) : Result :=
  armInstr cond s (pcWrite (s.reg rm &&& 0xFFFFFFFE) (s.setT ((s.reg rm).getLsbD 0)))

end Sys2Proof.Machine
end

