-- ==== Sys2Proof/Machine/Fetch.lean ====
section
/-! DEFINITION. The driver's instruction fetch (R95) and the placing of an instruction where the next fetch reads it (log entry 7). -/

namespace Sys2Proof.Machine

/-- The opcode of an ARM-state fetch, `MemRead(pc, 4)` (R83, R95); a byte where bus_ok is false stops it (log entry 7). -/
def fetchArm (s : State) : Except Fault Word :=
  match (bytesFrom s.pc 4).find? (fun a => !s.busOk a .read) with
  | some a => .error (.fetchBusError a)
  | none => .ok (s.readWord s.pc)

/-- The opcode of a THUMB-state fetch, `MemRead(pc, 2)` (R95). The step refuses it whatever it reads (R440). -/
def fetchThumb (s : State) : Half := s.readHalf s.pc

/-- Bytes written from an address upwards. -/
def writeBytes (a : Word) : List Byte → State → State
  | [], s => s
  | b :: bs, s => writeBytes (a + 1) bs (s.writeByte a b)

/-- An opcode's bytes, filled with zero bytes to the four of the longest instruction. -/
def fetchImage (c : Code) : List Byte :=
  match c with
  | .arm _ => c.bytes
  | .thumb _ => c.bytes ++ [0, 0]

/-- Whether an opcode is fetched in THUMB state (R110). -/
def Code.inThumb : Code → Bool
  | .arm _ => false
  | .thumb _ => true

/-- A hole that forbids reading one of the four bytes at `a` no longer forbids reading. -/
def openHole (a : Word) (h : BusHole) : BusHole :=
  if (bytesFrom a 4).any (fun b => h.covers b .read) then { h with read := false } else h

/-- The state with bus_ok true for reading the four bytes at the PC. -/
def openFetch (s : State) : State := { s with busHoles := s.busHoles.map (openHole s.pc) }

/-- An opcode placed where the next fetch reads it, in the state its length selects. -/
def placeCode (s : State) (c : Code) : State := writeBytes s.pc (fetchImage c) ((openFetch s).setT (Code.inThumb c))

end Sys2Proof.Machine
end

