-- ==== Sys2Proof/Machine/Operands.lean ====
section
/-! DEFINITION. The operand forms: the Barrel Shifter of addressing mode 1 (R190 to R205), the Load/Store Address Calculator of
modes 2 and 3 (R220 to R229), and the Block Transfer Address Calculator of mode 4 (R280 to R284). All are pure. -/

namespace Sys2Proof.Machine

/-! ## Addressing mode 1: the Barrel Shifter -/

/-- A shifter result: the operand value and the carry-out (R190). -/
structure Shifted where
  value : Word
  carry : Bool
  deriving DecidableEq, Repr

/-- Every bit equal to bit 31 of `m`. -/
def signFill (m : Word) : Word := if m.getLsbD 31 then 0xFFFFFFFF else 0

/-- The immediate operand (R191); `c` is the C flag before the instruction. -/
def shiftImmediate (rot : BitVec 4) (imm8 : BitVec 8) (c : Bool) : Shifted :=
  let v := (imm8.setWidth 32).rotateRight (2 * rot.toNat)
  { value := v, carry := if rot = 0 then c else v.getLsbD 31 }

/-- A register shifted by an immediate amount (R192 to R196, R202). -/
def shiftByImm (m : Word) (ty : ShiftType) (amount : BitVec 5) (c : Bool) : Shifted :=
  let k := amount.toNat
  match ty with
  | .lsl => if k = 0 then { value := m, carry := c } else { value := m <<< k, carry := m.getLsbD (32 - k) }
  | .lsr => if k = 0 then { value := 0, carry := m.getLsbD 31 } else { value := m >>> k, carry := m.getLsbD (k - 1) }
  | .asr =>
    if k = 0 then { value := signFill m, carry := m.getLsbD 31 }
    else { value := m.sshiftRight k, carry := m.getLsbD (k - 1) }
  | .ror =>
    if k = 0 then { value := placeBit 31 c ||| m >>> 1, carry := m.getLsbD 0 }
    else { value := m.rotateRight k, carry := m.getLsbD (k - 1) }

/-- A register shifted by the amount `k` = Rs[7:0] (R197 to R201). -/
def shiftByReg (m : Word) (ty : ShiftType) (k : Nat) (c : Bool) : Shifted :=
  if k = 0 then { value := m, carry := c }
  else
    match ty with
    | .lsl =>
      if k < 32 then { value := m <<< k, carry := m.getLsbD (32 - k) }
      else if k = 32 then { value := 0, carry := m.getLsbD 0 }
      else { value := 0, carry := false }
    | .lsr =>
      if k < 32 then { value := m >>> k, carry := m.getLsbD (k - 1) }
      else if k = 32 then { value := 0, carry := m.getLsbD 31 }
      else { value := 0, carry := false }
    | .asr =>
      if k < 32 then { value := m.sshiftRight k, carry := m.getLsbD (k - 1) }
      else { value := signFill m, carry := m.getLsbD 31 }
    | .ror =>
      let r := k % 32
      if r = 0 then { value := m, carry := m.getLsbD 31 }
      else { value := m.rotateRight r, carry := m.getLsbD (r - 1) }

/-- Whether the operand is a register-specified shift: its instruction reads r15 late under Pipelined (R197). -/
def isRegShift : ShifterOperand → Bool
  | .regShift .. => true
  | .imm .. | .immShift .. => false

/-- Whether the operand is a register-specified shift with Rs = 15 (R197). -/
def rsIsPc : ShifterOperand → Bool
  | .regShift rs _ _ => rs == 15
  | .imm .. | .immShift .. => false

/-- shift_operand(opcode, regs) (R190). -/
def shiftOperand (op : ShifterOperand) (s : State) : Shifted :=
  match op with
  | .imm rot imm8 => shiftImmediate rot imm8 s.c
  | .immShift amount ty rm => shiftByImm (s.reg rm) ty amount s.c
  | .regShift rs ty rm => shiftByReg (s.regLate rm) ty (fieldAt (s.reg rs) 0 8).toNat s.c

/-- The first operand x[Rn] of a data-processing instruction (R350), late for a register-specified shift (R197). -/
def firstOperand (op : ShifterOperand) (rn : Reg) (s : State) : Word := if isRegShift op then s.regLate rn else s.reg rn

/-! ## Addressing modes 2 and 3: the Load/Store Address Calculator -/

/-- An Effective Address outcome: an address and an optional base writeback value (R220). -/
structure EffAddr where
  addr : Word
  wb : Option Word
  deriving DecidableEq, Repr

/-- The address computation of both modes (R221, R225); the row P = 0, W = 1 computes as post-indexed (R221). -/
def effAddr (idx : Index) (up : Bool) (base offset : Word) : EffAddr :=
  let eaNew := if up then base + offset else base - offset
  match idx with
  | .offset => { addr := eaNew, wb := none }
  | .pre => { addr := eaNew, wb := some eaNew }
  | .post | .postW => { addr := base, wb := some eaNew }

/-- The last check of R225: writeback with Rn = 15. -/
def checkBase (rn : Reg) (ea : EffAddr) : Except Fault EffAddr :=
  if ea.wb.isSome ∧ rn = 15 then .error (.unpredictable .writebackToPc) else .ok ea

/-- The value of a mode-2 offset (R222 to R224); the shifter's carry-out is discarded (R204). -/
def offset2 (off : Offset2) (s : State) : Except Fault Word :=
  match off with
  | .imm o => .ok (o.setWidth 32)
  | .reg amount ty rm =>
    if rm = 15 then .error (.unpredictable .rmIsPc) else .ok (shiftByImm (s.reg rm) ty amount s.c).value

/-- ModeTwo(opcode) (R221 to R225); the order of the two reasons is log entry 10 (DEDUCED). -/
def modeTwo (idx : Index) (up : Bool) (rn : Reg) (off : Offset2) (s : State) : Except Fault EffAddr :=
  match offset2 off s with
  | .error f => .error f
  | .ok o => checkBase rn (effAddr idx up (s.reg rn) o)

/-- The value of a mode-3 offset (R227, R228). -/
def offset3 (off : Offset3) (s : State) : Except Fault Word :=
  match off with
  | .imm o => .ok (o.setWidth 32)
  | .reg rm => if rm = 15 then .error (.unpredictable .rmIsPc) else .ok (s.reg rm)

/-- ModeThree(opcode) (R225, R227 to R229); the order of the three reasons is log entry 10. -/
def modeThree (idx : Index) (up : Bool) (rn : Reg) (off : Offset3) (s : State) : Except Fault EffAddr :=
  match offset3 off s with
  | .error f => .error f
  | .ok o =>
    if idx = .postW then .error (.unpredictable .mode3PostIndexedW)
    else checkBase rn (effAddr idx up (s.reg rn) o)

/-- The writeback commit x[Rn] <- wb (R226). -/
def commitWb (rn : Reg) (wb : Option Word) (s : State) : State :=
  match wb with
  | some v => s.setReg rn v
  | none => s

/-! ## Addressing mode 4: the Block Transfer Address Calculator -/

/-- r0..r15 in increasing order. -/
def allRegs : List Reg := [0, 1, 2, 3, 4, 5, 6, 7, 8, 9, 10, 11, 12, 13, 14, 15]

/-- The registers of a list, lowest first (R283). -/
def regsOf (list : BitVec 16) : List Reg := allRegs.filter (fun i => list.getLsbD i.val)

/-- popcount(list) (R14, R280). -/
def popcount (list : BitVec 16) : Nat := (regsOf list).length

/-- The span 4k of a list as a word. -/
def span (list : BitVec 16) : Word := BitVec.ofNat 32 (4 * popcount list)

/-- compute_range(opcode, regs): the start address of each form (R280). -/
def blockStart (form : BlockForm) (b : Word) (list : BitVec 16) : Word :=
  match form with
  | .ia => b
  | .ib => b + 4
  | .da => b - span list + 4
  | .db => b - span list

/-- The end address of each form (R280). -/
def blockEnd (form : BlockForm) (b : Word) (list : BitVec 16) : Word :=
  match form with
  | .ia => b + span list - 4
  | .ib => b + span list
  | .da => b
  | .db => b - 4

/-- The writeback value of each form, subtracting for the decrement forms (R280, R281). -/
def blockWb (form : BlockForm) (b : Word) (list : BitVec 16) : Word :=
  match form with
  | .ia | .ib => b + span list
  | .da | .db => b - span list

/-- Each register with its word-aligned address, four bytes apart from `a` on (R90, R283). -/
def assign (a : Word) : List Reg → List (Reg × Word)
  | [] => []
  | r :: rs => (r, align4 a) :: assign (a + 4) rs

/-- The transfers of a block instruction, in order (R96, R283). -/
def transfers (form : BlockForm) (b : Word) (list : BitVec 16) : List (Reg × Word) :=
  assign (blockStart form b list) (regsOf list)

/-- Every byte a list of transfers touches, in order (R92, R96). -/
def transferBytes (ts : List (Reg × Word)) : List Word := ts.flatMap (fun t => bytesFrom t.2 4)

/-- The checks of R284; an empty list is reported before Rn = 15 (DEDUCED, log entry 10). -/
def blockCheck (rn : Reg) (list : BitVec 16) (k : Result) : Result :=
  if popcount list = 0 then .fault (.unpredictable .emptyList)
  else if rn = 15 then .fault (.unpredictable .pcAsBase)
  else k

/-- Whether the list holds a register below Rn (R287: list[0 .. n-1] ≠ 0). -/
def holdsLower (rn : Reg) (list : BitVec 16) : Bool := (regsOf list).any (fun i => decide (i < rn))

end Sys2Proof.Machine
end

