-- ==== Sys2Proof/Machine/Block.lean ====
section
/-! DEFINITION. Block transfers (R280 to R294). -/

namespace Sys2Proof.Machine

/-- The loaded words of a list of transfers, written to registers r0..r14 by `set`; r15 is left to the PC write (R286). -/
def loadRegs (set : State → Reg → Word → State) (src : State) : List (Reg × Word) → State → State
  | [], s => s
  | (r, a) :: ts, s => loadRegs set src ts (if r = 15 then s else set s r (src.readWord a))

/-- The word loaded for r15, the last transfer of a list that holds it (R286). -/
def pcWord (src : State) (ts : List (Reg × Word)) : Option Word :=
  match ts.find? (fun t => t.1 == 15) with
  | some t => some (src.readWord t.2)
  | none => none

/-- The words of a list of transfers stored, each register's value read by `get` before the instruction's writes (R287). -/
def storeRegs (get : Reg → Word) : List (Reg × Word) → State → State
  | [], s => s
  | (r, a) :: ts, s => storeRegs get ts (s.writeWord a (get r))

/-- x[n] <- writeback value when W = 1 (R282). -/
def blockWriteback (wb : Bool) (rn : Reg) (v : Word) (s : State) : State := if wb then s.setReg rn v else s

/-- LDM with S = 0 (R284, R286). -/
def ldmOp (form : BlockForm) (cond : Cond) (wb : Bool) (rn : Reg) (list : BitVec 16) (s : State) : Result :=
  armInstr cond s
    (blockCheck rn list
      (if wb = true ∧ list.getLsbD rn.val = true then .fault (.unpredictable .ldmWritebackBaseInList)
       else
         let b := s.reg rn
         let ts := transfers form b list
         busCheck s .read (transferBytes ts)
           (let s' := loadRegs State.setReg s ts (blockWriteback wb rn (blockWb form b list) s)
            match pcWord s ts with
            | some v => pcWrite v s'
            | none => .next s'.advance)))

/-- STM with S = 0 (R284, R287). -/
def stmOp (form : BlockForm) (cond : Cond) (wb : Bool) (rn : Reg) (list : BitVec 16) (s : State) : Result :=
  armInstr cond s
    (blockCheck rn list
      (if wb = true ∧ list.getLsbD rn.val = true ∧ holdsLower rn list = true then
         .fault (.unpredictable .stmWritebackBaseNotLowest)
       else
         let b := s.reg rn
         let ts := transfers form b list
         busCheck s .write (transferBytes ts)
           (.next ((blockWriteback wb rn (blockWb form b list) (storeRegs s.regLate ts s)).advance))))

/-- LDMIA (R286). -/
def execLdmia (cond : Cond) (wb : Bool) (rn : Reg) (list : BitVec 16) (s : State) : Result := ldmOp .ia cond wb rn list s
/-- LDMIB (R286). -/
def execLdmib (cond : Cond) (wb : Bool) (rn : Reg) (list : BitVec 16) (s : State) : Result := ldmOp .ib cond wb rn list s
/-- LDMDA (R286). -/
def execLdmda (cond : Cond) (wb : Bool) (rn : Reg) (list : BitVec 16) (s : State) : Result := ldmOp .da cond wb rn list s
/-- LDMDB (R286). -/
def execLdmdb (cond : Cond) (wb : Bool) (rn : Reg) (list : BitVec 16) (s : State) : Result := ldmOp .db cond wb rn list s
/-- STMIA (R287). -/
def execStmia (cond : Cond) (wb : Bool) (rn : Reg) (list : BitVec 16) (s : State) : Result := stmOp .ia cond wb rn list s
/-- STMIB (R287). -/
def execStmib (cond : Cond) (wb : Bool) (rn : Reg) (list : BitVec 16) (s : State) : Result := stmOp .ib cond wb rn list s
/-- STMDA (R287). -/
def execStmda (cond : Cond) (wb : Bool) (rn : Reg) (list : BitVec 16) (s : State) : Result := stmOp .da cond wb rn list s
/-- STMDB (R287). -/
def execStmdb (cond : Cond) (wb : Bool) (rn : Reg) (list : BitVec 16) (s : State) : Result := stmOp .db cond wb rn list s

/-- LDM with S = 1 and r15 in the list, the exception return (R290): the registers go to the current mode's bank, then the CPSR is
restored from the current SPSR, then the PC is written. User and System mode have no SPSR, which ends the step before any access. -/
def execLdmReturn (cond : Cond) (form : BlockForm) (wb : Bool) (rn : Reg) (list : BitVec 16) (s : State) : Result :=
  armInstr cond s
    (blockCheck rn list
      (if wb = true ∧ list.getLsbD rn.val = true then .fault (.unpredictable .ldmWritebackBaseInList)
       else if s.curSpsr = none then .fault (.invalidModeAccess .read)
       else
         let b := s.reg rn
         let ts := transfers form b list
         busCheck s .read (transferBytes ts)
           (let s' := loadRegs State.setReg s ts (blockWriteback wb rn (blockWb form b list) s)
            match pcWord s ts with
            | some v => exceptionReturn v s'
            | none => .next s'.advance)))

/-- LDM with S = 1 and no r15, the user-bank load (R292). The order of its checks, and that W = 1 with the
base in the list is reported as the user-bank writeback, are DEDUCED (log entry 10). -/
def execLdmUser (cond : Cond) (form : BlockForm) (wb : Bool) (rn : Reg) (list : BitVec 16) (s : State) : Result :=
  armInstr cond s
    (blockCheck rn list
      (if wb then .fault (.unpredictable .userLdmWriteback)
       else if s.mode = .user ∨ s.mode = .system then .fault (.unpredictable .userLdmInUserOrSystem)
       else
         let ts := transfers form (s.reg rn) list
         busCheck s .read (transferBytes ts) (.next ((loadRegs State.setUserReg s ts s).advance))))

/-- STM with S = 1, the user-bank store (R293). The order of its checks, and that W = 1 with the base in the list is reported as
the user-bank writeback, are DEDUCED (log entry 10). -/
def execStmUser (cond : Cond) (form : BlockForm) (wb : Bool) (rn : Reg) (list : BitVec 16) (s : State) : Result :=
  armInstr cond s
    (blockCheck rn list
      (if wb then .fault (.unpredictable .userStmWriteback)
       else if s.mode = .user ∨ s.mode = .system then .fault (.unpredictable .userStmInUserOrSystem)
       else
         let ts := transfers form (s.reg rn) list
         busCheck s .write (transferBytes ts) (.next ((storeRegs s.userReg ts s).advance))))

end Sys2Proof.Machine
end

