-- ==== Sys2Proof/Machine/Flags.lean ====
section
/-! DEFINITION. The arithmetic of the Execution Unit and every flag computation: the adder (R352), the sixteen data-processing
results (R351, R356 to R371), the multiplies' products and flags (R330 to R338). -/

namespace Sys2Proof.Machine

/-! ## The adder -/

/-- A result of the adder (R352). -/
structure Sum where
  res : Word
  carry : Bool
  overflow : Bool
  deriving DecidableEq, Repr

/-- AddWithCarry(p, q, cin): the exact sums, unsigned for the carry and signed for the overflow (R352). -/
def addWithCarry (p q : Word) (cin : Bool) : Sum :=
  let u := p.toNat + q.toNat + cin.toNat
  let i := p.toInt + q.toInt + cin.toNat
  { res := BitVec.ofNat 32 u
    carry := decide (2 ^ 32 ≤ u)
    overflow := decide (i < -2 ^ 31 ∨ 2 ^ 31 - 1 < i) }

/-! ## Data-processing results -/

/-- What a data-processing opcode computes from: Rn, the shifter's value and carry-out (R350), and C and V before it. -/
structure AluIn where
  a : Word
  op2 : Word
  sc : Bool
  c : Bool
  v : Bool
  deriving DecidableEq, Repr

/-- A result with the C and V a flag commit writes (R351); N and Z follow from the result. -/
structure AluOut where
  res : Word
  c : Bool
  v : Bool
  deriving DecidableEq, Repr

/-- A logical opcode: C is the shifter's carry-out, V unchanged (R351). -/
def logical (x : AluIn) (res : Word) : AluOut := { res := res, c := x.sc, v := x.v }

/-- An arithmetic opcode: C and V are the adder's (R351). -/
def arith (r : Sum) : AluOut := { res := r.res, c := r.carry, v := r.overflow }

/-- R356, R364 -/
def aluAnd (x : AluIn) : AluOut := logical x (x.a &&& x.op2)
/-- R357, R365 -/
def aluEor (x : AluIn) : AluOut := logical x (x.a ^^^ x.op2)
/-- R358, R366 -/
def aluSub (x : AluIn) : AluOut := arith (addWithCarry x.a (~~~x.op2) true)
/-- R359 -/
def aluRsb (x : AluIn) : AluOut := arith (addWithCarry x.op2 (~~~x.a) true)
/-- R360, R367 -/
def aluAdd (x : AluIn) : AluOut := arith (addWithCarry x.a x.op2 false)
/-- R361 -/
def aluAdc (x : AluIn) : AluOut := arith (addWithCarry x.a x.op2 x.c)
/-- R362 -/
def aluSbc (x : AluIn) : AluOut := arith (addWithCarry x.a (~~~x.op2) x.c)
/-- R363 -/
def aluRsc (x : AluIn) : AluOut := arith (addWithCarry x.op2 (~~~x.a) x.c)
/-- R368 -/
def aluOrr (x : AluIn) : AluOut := logical x (x.a ||| x.op2)
/-- R369 -/
def aluMov (x : AluIn) : AluOut := logical x x.op2
/-- R370 -/
def aluBic (x : AluIn) : AluOut := logical x (x.a &&& ~~~x.op2)
/-- R371 -/
def aluMvn (x : AluIn) : AluOut := logical x (~~~x.op2)

/-- The operands of a data-processing instruction, read before any write (R350). -/
def aluIn (op : ShifterOperand) (rn : Reg) (s : State) : AluIn :=
  let sh := shiftOperand op s
  { a := firstOperand op rn s, op2 := sh.value, sc := sh.carry, c := s.c, v := s.v }

/-- The flag commit of R351. -/
def commitFlags (o : AluOut) (s : State) : State := s.setNzcv (o.res.getLsbD 31) (o.res == 0) o.c o.v

/-! ## Multiplies -/

/-- MUL: the low 32 bits of the unsigned product (R330). -/
def mul32 (m s : Word) : Word := BitVec.ofNat 32 (m.toNat * s.toNat)

/-- MLA (R332). -/
def mla32 (m s n : Word) : Word := BitVec.ofNat 32 (m.toNat * s.toNat + n.toNat)

/-- UMULL (R334). -/
def umul64 (m s : Word) : BitVec 64 := BitVec.ofNat 64 (m.toNat * s.toNat)

/-- UMLAL: the accumulator is {RdHi, RdLo} (R335). -/
def umla64 (m s hi lo : Word) : BitVec 64 :=
  BitVec.ofNat 64 (m.toNat * s.toNat + ((hi ++ lo : BitVec (32 + 32))).toNat)

/-- SMULL (R336). -/
def smul64 (m s : Word) : BitVec 64 := BitVec.ofInt 64 (m.toInt * s.toInt)

/-- SMLAL (R337). -/
def smla64 (m s hi lo : Word) : BitVec 64 :=
  BitVec.ofInt 64 (m.toInt * s.toInt + ((hi ++ lo : BitVec (32 + 32))).toInt)

/-- N and Z after a flag-setting MUL or MLA; C is kept, or a free value under Draw; V is kept (R330 to R332). -/
def mulFlags (n z : Bool) (s : State) : State :=
  match s.mulsCPolicy with
  | .unchanged => s.setNzcv n z s.c s.v
  | .draw => { s.setNzcv n z (Config.freeFlag s.draws) s.v with draws := s.draws + 1 }

/-- N and Z after a flag-setting long multiply; C and V are kept, or free values under Draw (R331, R333). -/
def longMulFlags (n z : Bool) (s : State) : State :=
  match s.mulsCPolicy with
  | .unchanged => s.setNzcv n z s.c s.v
  | .draw => { s.setNzcv n z (Config.freeFlag s.draws) (Config.freeFlag (s.draws + 1)) with draws := s.draws + 2 }

end Sys2Proof.Machine
end

