-- ==== Sys2Proof/Machine/DataProcessing.lean ====
section
/-! DEFINITION. Data processing: the sixteen opcodes (R350 to R373). -/

namespace Sys2Proof.Machine

/-- The sixteen opcodes' shape for those with a result (R350, R351, R353): operands, result, then the register and flags, or for
Rd = 15 a PC write, or with S = 1 the exception return. -/
def dataOp (f : AluIn → AluOut) (cond : Cond) (sf : Bool) (rn rd : Reg) (op : ShifterOperand) (s : State) : Result :=
  armInstr cond s
    (if rsIsPc op then .fault (.unpredictable .rsIsPc)
     else
       let o := f (aluIn op rn s)
       if rd = 15 then
         if sf then exceptionReturn o.res s else pcWrite o.res s
       else .next ((((if sf then commitFlags o s else s)).setReg rd o.res).advance))

/-- The four test opcodes' shape: flags always, no register write; Rd = 15 is Unpredictable (R351, R354, R364 to R367). -/
def testOp (f : AluIn → AluOut) (cond : Cond) (rn sbzRd : Reg) (op : ShifterOperand) (s : State) : Result :=
  armInstr cond s
    (if sbzRd = 15 then .fault (.unpredictable .testRdIsPc)
     else if rsIsPc op then .fault (.unpredictable .rsIsPc)
     else .next ((commitFlags (f (aluIn op rn s)) s).advance))

/-- AND (R356). -/
def execAnd (cond : Cond) (sf : Bool) (rn rd : Reg) (op : ShifterOperand) (s : State) : Result :=
  dataOp aluAnd cond sf rn rd op s

/-- EOR (R357). -/
def execEor (cond : Cond) (sf : Bool) (rn rd : Reg) (op : ShifterOperand) (s : State) : Result :=
  dataOp aluEor cond sf rn rd op s

/-- SUB (R358). -/
def execSub (cond : Cond) (sf : Bool) (rn rd : Reg) (op : ShifterOperand) (s : State) : Result :=
  dataOp aluSub cond sf rn rd op s

/-- RSB (R359). -/
def execRsb (cond : Cond) (sf : Bool) (rn rd : Reg) (op : ShifterOperand) (s : State) : Result :=
  dataOp aluRsb cond sf rn rd op s

/-- ADD (R360). -/
def execAdd (cond : Cond) (sf : Bool) (rn rd : Reg) (op : ShifterOperand) (s : State) : Result :=
  dataOp aluAdd cond sf rn rd op s

/-- ADC (R361). -/
def execAdc (cond : Cond) (sf : Bool) (rn rd : Reg) (op : ShifterOperand) (s : State) : Result :=
  dataOp aluAdc cond sf rn rd op s

/-- SBC (R362). -/
def execSbc (cond : Cond) (sf : Bool) (rn rd : Reg) (op : ShifterOperand) (s : State) : Result :=
  dataOp aluSbc cond sf rn rd op s

/-- RSC (R363). -/
def execRsc (cond : Cond) (sf : Bool) (rn rd : Reg) (op : ShifterOperand) (s : State) : Result :=
  dataOp aluRsc cond sf rn rd op s

/-- TST (R364). -/
def execTst (cond : Cond) (rn sbzRd : Reg) (op : ShifterOperand) (s : State) : Result :=
  testOp aluAnd cond rn sbzRd op s

/-- TEQ (R365). -/
def execTeq (cond : Cond) (rn sbzRd : Reg) (op : ShifterOperand) (s : State) : Result :=
  testOp aluEor cond rn sbzRd op s

/-- CMP (R366). -/
def execCmp (cond : Cond) (rn sbzRd : Reg) (op : ShifterOperand) (s : State) : Result :=
  testOp aluSub cond rn sbzRd op s

/-- CMN (R367). -/
def execCmn (cond : Cond) (rn sbzRd : Reg) (op : ShifterOperand) (s : State) : Result :=
  testOp aluAdd cond rn sbzRd op s

/-- ORR (R368). -/
def execOrr (cond : Cond) (sf : Bool) (rn rd : Reg) (op : ShifterOperand) (s : State) : Result :=
  dataOp aluOrr cond sf rn rd op s

/-- MOV (R369); the Rn field is ignored, since the result does not read it (R354). -/
def execMov (cond : Cond) (sf : Bool) (sbzRn rd : Reg) (op : ShifterOperand) (s : State) : Result :=
  dataOp aluMov cond sf sbzRn rd op s

/-- BIC (R370). -/
def execBic (cond : Cond) (sf : Bool) (rn rd : Reg) (op : ShifterOperand) (s : State) : Result :=
  dataOp aluBic cond sf rn rd op s

/-- MVN (R371); the Rn field is ignored, since the result does not read it (R354). -/
def execMvn (cond : Cond) (sf : Bool) (sbzRn rd : Reg) (op : ShifterOperand) (s : State) : Result :=
  dataOp aluMvn cond sf sbzRn rd op s

end Sys2Proof.Machine
end

