-- ==== Sys2Proof/Machine/Multiply.lean ====
section
/-! DEFINITION. The multiplies (R330 to R338). -/

namespace Sys2Proof.Machine

/-- The commit of MUL and MLA: the result, the flags when S = 1, the advance (R330, R332). -/
def mulCommit (sf : Bool) (rd : Reg) (r : Word) (s : State) : Result :=
  .next (((if sf then mulFlags (r.getLsbD 31) (r == 0) s else s).setReg rd r).advance)

/-- MUL (R330); the n field is ignored. -/
def execMul (cond : Cond) (sf : Bool) (rd _sbzRn rs rm : Reg) (s : State) : Result :=
  armInstr cond s
    (if rd = 15 ∨ rm = 15 ∨ rs = 15 then .fault (.unpredictable .mulPcOperand)
     else if rd = rm then .fault (.unpredictable .mulRdIsRm)
     else mulCommit sf rd (mul32 (s.reg rm) (s.reg rs)) s)

/-- MLA (R332). -/
def execMla (cond : Cond) (sf : Bool) (rd rn rs rm : Reg) (s : State) : Result :=
  armInstr cond s
    (if rd = 15 ∨ rm = 15 ∨ rs = 15 ∨ rn = 15 then .fault (.unpredictable .mlaPcOperand)
     else if rd = rm then .fault (.unpredictable .mlaRdIsRm)
     else mulCommit sf rd (mla32 (s.reg rm) (s.reg rs) (s.reg rn)) s)

/-- What the four long multiplies share: the operand checks, the two result registers, the flags (R333). Where an r15 operand and an
overlap apply at once, the reason reported is the r15 operand's (DEDUCED, log entry 10). -/
def longMul (f : Word → Word → Word → Word → BitVec 64) (cond : Cond) (sf : Bool) (rdHi rdLo rs rm : Reg) (s : State) :
    Result :=
  armInstr cond s
    (if rdHi = 15 ∨ rdLo = 15 ∨ rm = 15 ∨ rs = 15 then .fault (.unpredictable .longMulPcOperand)
     else if rdHi = rdLo ∨ rdHi = rm ∨ rdLo = rm then .fault (.unpredictable .longMulOverlap)
     else
       let r := f (s.reg rm) (s.reg rs) (s.reg rdHi) (s.reg rdLo)
       .next
         ((((if sf then longMulFlags (r.getLsbD 63) (r == 0) s else s).setReg rdLo (fieldAt r 0 32)).setReg rdHi
             (fieldAt r 32 32)).advance))

/-- UMULL (R334). -/
def execUmull (cond : Cond) (sf : Bool) (rdHi rdLo rs rm : Reg) (s : State) : Result :=
  longMul (fun m x _ _ => umul64 m x) cond sf rdHi rdLo rs rm s

/-- UMLAL (R335). -/
def execUmlal (cond : Cond) (sf : Bool) (rdHi rdLo rs rm : Reg) (s : State) : Result :=
  longMul umla64 cond sf rdHi rdLo rs rm s

/-- SMULL (R336). -/
def execSmull (cond : Cond) (sf : Bool) (rdHi rdLo rs rm : Reg) (s : State) : Result :=
  longMul (fun m x _ _ => smul64 m x) cond sf rdHi rdLo rs rm s

/-- SMLAL (R337). -/
def execSmlal (cond : Cond) (sf : Bool) (rdHi rdLo rs rm : Reg) (s : State) : Result :=
  longMul smla64 cond sf rdHi rdLo rs rm s

end Sys2Proof.Machine
end

