-- ==== Sys2Proof/Machine/Psr.lean ====
section
/-! DEFINITION. PSR transfer (R390 to R395). -/

namespace Sys2Proof.Machine

/-- MRS (R390). -/
def execMrs (cond : Cond) (spsr : Bool) (rd : Reg) (s : State) : Result :=
  armInstr cond s
    (if rd = 15 then .fault (.unpredictable .mrsToPc)
     else if spsr then
       match s.curSpsr with
       | some v => .next ((s.setReg rd v).advance)
       | none => .fault (.invalidModeAccess .read)
     else .next ((s.setReg rd s.cpsr).advance))

/-- The byte mask of a field_mask, less the reserved bits 26:8 (R392): bit 3 is f, bit 2 s, bit 1 x, bit 0 c. -/
def msrMask (m : BitVec 4) : Word :=
  ((if m.getLsbD 3 then 0xFF000000 else 0) ||| (if m.getLsbD 2 then 0x00FF0000 else 0)
    ||| (if m.getLsbD 1 then 0x0000FF00 else 0) ||| (if m.getLsbD 0 then 0x000000FF else 0)) &&& psrMask

/-- A PSR with the bits of `mask` taken from `v` (R393, R395). -/
def mergePsr (old mask v : Word) : Word := (old &&& ~~~mask) ||| (v &&& mask)

/-- MSR to the CPSR (R393). -/
def msrCpsr (m : BitVec 4) (v : Word) (s : State) : Result :=
  let mask := if s.mode = .user then msrMask m &&& 0xFF000000 else msrMask m
  let new := mergePsr s.cpsr mask v
  if new.getLsbD 5 ≠ s.cpsr.getLsbD 5 then .fault (.unpredictable .msrChangesT)
  else if fieldAt new 0 5 = fieldAt s.cpsr 0 5 then .next ((s.setCpsr new).advance)
  else
    match Mode.ofBits (fieldAt new 0 5) with
    | none => .fault (.unpredictable .invalidMode)
    | some mode => .next ((s.loadCpsr mode new).advance)

/-- MSR to the SPSR (R395). -/
def msrSpsr (m : BitVec 4) (v : Word) (s : State) : Result :=
  match s.curSpsr with
  | none => .fault (.invalidModeAccess .write)
  | some old => .next ((s.setSpsr (mergePsr old (msrMask m) v)).advance)

/-- The register operand of MSR (R391). -/
def msrFromReg (rm : Reg) (s : State) (k : Word → Result) : Result :=
  if rm = 15 then .fault (.unpredictable .msrFromPc) else k (s.reg rm)

/-- The immediate operand of MSR: the shifter's immediate, carry discarded (R204, R391). -/
def msrImm (rot : BitVec 4) (imm8 : BitVec 8) : Word := (shiftImmediate rot imm8 false).value

/-- MSR CPSR, register form (R391 to R393). -/
def execMsrCpsrReg (cond : Cond) (mask : BitVec 4) (rm : Reg) (s : State) : Result :=
  armInstr cond s (msrFromReg rm s (fun v => msrCpsr mask v s))

/-- MSR SPSR, register form (R391, R392, R395). -/
def execMsrSpsrReg (cond : Cond) (mask : BitVec 4) (rm : Reg) (s : State) : Result :=
  armInstr cond s (msrFromReg rm s (fun v => msrSpsr mask v s))

/-- MSR CPSR, immediate form (R391 to R394). -/
def execMsrCpsrImm (cond : Cond) (mask rot : BitVec 4) (imm8 : BitVec 8) (s : State) : Result :=
  armInstr cond s (msrCpsr mask (msrImm rot imm8) s)

/-- MSR SPSR, immediate form (R391, R392, R395). -/
def execMsrSpsrImm (cond : Cond) (mask rot : BitVec 4) (imm8 : BitVec 8) (s : State) : Result :=
  armInstr cond s (msrSpsr mask (msrImm rot imm8) s)

end Sys2Proof.Machine
end

