-- ==== Sys2Proof/Machine/Thumb.lean ====
section
/-! DEFINITION. The THUMB instructions: classified and decoded, and refused by the spec itself, "with no state change" (R6 (e), R440).
Each has a definition of its own. -/

namespace Sys2Proof.Machine

/-- Format 1: refused (R440). -/
def execThumbLslImm (_offset5 : BitVec 5) (_rs _rd : LoReg) (s : State) : Result := thumbRefused s
/-- Format 1: refused (R440). -/
def execThumbLsrImm (_offset5 : BitVec 5) (_rs _rd : LoReg) (s : State) : Result := thumbRefused s
/-- Format 1: refused (R440). -/
def execThumbAsrImm (_offset5 : BitVec 5) (_rs _rd : LoReg) (s : State) : Result := thumbRefused s
/-- Format 2: refused (R440). -/
def execThumbAddReg (_rn _rs _rd : LoReg) (s : State) : Result := thumbRefused s
/-- Format 2: refused (R440). -/
def execThumbSubReg (_rn _rs _rd : LoReg) (s : State) : Result := thumbRefused s
/-- Format 2: refused (R440). -/
def execThumbAddImm3 (_imm3 : BitVec 3) (_rs _rd : LoReg) (s : State) : Result := thumbRefused s
/-- Format 2: refused (R440). -/
def execThumbSubImm3 (_imm3 : BitVec 3) (_rs _rd : LoReg) (s : State) : Result := thumbRefused s
/-- Format 3: refused (R440). -/
def execThumbMovImm8 (_rd : LoReg) (_imm8 : BitVec 8) (s : State) : Result := thumbRefused s
/-- Format 3: refused (R440). -/
def execThumbCmpImm8 (_rd : LoReg) (_imm8 : BitVec 8) (s : State) : Result := thumbRefused s
/-- Format 3: refused (R440). -/
def execThumbAddImm8 (_rd : LoReg) (_imm8 : BitVec 8) (s : State) : Result := thumbRefused s
/-- Format 3: refused (R440). -/
def execThumbSubImm8 (_rd : LoReg) (_imm8 : BitVec 8) (s : State) : Result := thumbRefused s
/-- Format 4: refused (R440). -/
def execThumbAndAlu (_rs _rd : LoReg) (s : State) : Result := thumbRefused s
/-- Format 4: refused (R440). -/
def execThumbEorAlu (_rs _rd : LoReg) (s : State) : Result := thumbRefused s
/-- Format 4: refused (R440). -/
def execThumbLslAlu (_rs _rd : LoReg) (s : State) : Result := thumbRefused s
/-- Format 4: refused (R440). -/
def execThumbLsrAlu (_rs _rd : LoReg) (s : State) : Result := thumbRefused s
/-- Format 4: refused (R440). -/
def execThumbAsrAlu (_rs _rd : LoReg) (s : State) : Result := thumbRefused s
/-- Format 4: refused (R440). -/
def execThumbAdcAlu (_rs _rd : LoReg) (s : State) : Result := thumbRefused s
/-- Format 4: refused (R440). -/
def execThumbSbcAlu (_rs _rd : LoReg) (s : State) : Result := thumbRefused s
/-- Format 4: refused (R440). -/
def execThumbRorAlu (_rs _rd : LoReg) (s : State) : Result := thumbRefused s
/-- Format 4: refused (R440). -/
def execThumbTstAlu (_rs _rd : LoReg) (s : State) : Result := thumbRefused s
/-- Format 4: refused (R440). -/
def execThumbNegAlu (_rs _rd : LoReg) (s : State) : Result := thumbRefused s
/-- Format 4: refused (R440). -/
def execThumbCmpAlu (_rs _rd : LoReg) (s : State) : Result := thumbRefused s
/-- Format 4: refused (R440). -/
def execThumbCmnAlu (_rs _rd : LoReg) (s : State) : Result := thumbRefused s
/-- Format 4: refused (R440). -/
def execThumbOrrAlu (_rs _rd : LoReg) (s : State) : Result := thumbRefused s
/-- Format 4: refused (R440). -/
def execThumbMulAlu (_rs _rd : LoReg) (s : State) : Result := thumbRefused s
/-- Format 4: refused (R440). -/
def execThumbBicAlu (_rs _rd : LoReg) (s : State) : Result := thumbRefused s
/-- Format 4: refused (R440). -/
def execThumbMvnAlu (_rs _rd : LoReg) (s : State) : Result := thumbRefused s
/-- Format 5: refused (R440). -/
def execThumbAddHi (_h1 _h2 : Bool) (_rs _rd : LoReg) (s : State) : Result := thumbRefused s
/-- Format 5: refused (R440). -/
def execThumbCmpHi (_h1 _h2 : Bool) (_rs _rd : LoReg) (s : State) : Result := thumbRefused s
/-- Format 5: refused (R440). -/
def execThumbMovHi (_h1 _h2 : Bool) (_rs _rd : LoReg) (s : State) : Result := thumbRefused s
/-- Format 5: refused (R440). -/
def execThumbBx (_h1 _h2 : Bool) (_rs _rd : LoReg) (s : State) : Result := thumbRefused s
/-- Format 6: refused (R440). -/
def execThumbLdrPc (_rd : LoReg) (_word8 : BitVec 8) (s : State) : Result := thumbRefused s
/-- Format 7: refused (R440). -/
def execThumbStrRegOff (_ro _rb _rd : LoReg) (s : State) : Result := thumbRefused s
/-- Format 7: refused (R440). -/
def execThumbStrbRegOff (_ro _rb _rd : LoReg) (s : State) : Result := thumbRefused s
/-- Format 7: refused (R440). -/
def execThumbLdrRegOff (_ro _rb _rd : LoReg) (s : State) : Result := thumbRefused s
/-- Format 7: refused (R440). -/
def execThumbLdrbRegOff (_ro _rb _rd : LoReg) (s : State) : Result := thumbRefused s
/-- Format 8: refused (R440). -/
def execThumbStrhRegOff (_ro _rb _rd : LoReg) (s : State) : Result := thumbRefused s
/-- Format 8: refused (R440). -/
def execThumbLdsbRegOff (_ro _rb _rd : LoReg) (s : State) : Result := thumbRefused s
/-- Format 8: refused (R440). -/
def execThumbLdrhRegOff (_ro _rb _rd : LoReg) (s : State) : Result := thumbRefused s
/-- Format 8: refused (R440). -/
def execThumbLdshRegOff (_ro _rb _rd : LoReg) (s : State) : Result := thumbRefused s
/-- Format 9: refused (R440). -/
def execThumbStrImmOff (_offset5 : BitVec 5) (_rb _rd : LoReg) (s : State) : Result := thumbRefused s
/-- Format 9: refused (R440). -/
def execThumbLdrImmOff (_offset5 : BitVec 5) (_rb _rd : LoReg) (s : State) : Result := thumbRefused s
/-- Format 9: refused (R440). -/
def execThumbStrbImmOff (_offset5 : BitVec 5) (_rb _rd : LoReg) (s : State) : Result := thumbRefused s
/-- Format 9: refused (R440). -/
def execThumbLdrbImmOff (_offset5 : BitVec 5) (_rb _rd : LoReg) (s : State) : Result := thumbRefused s
/-- Format 10: refused (R440). -/
def execThumbStrhImmOff (_offset5 : BitVec 5) (_rb _rd : LoReg) (s : State) : Result := thumbRefused s
/-- Format 10: refused (R440). -/
def execThumbLdrhImmOff (_offset5 : BitVec 5) (_rb _rd : LoReg) (s : State) : Result := thumbRefused s
/-- Format 11: refused (R440). -/
def execThumbStrSp (_rd : LoReg) (_word8 : BitVec 8) (s : State) : Result := thumbRefused s
/-- Format 11: refused (R440). -/
def execThumbLdrSp (_rd : LoReg) (_word8 : BitVec 8) (s : State) : Result := thumbRefused s
/-- Format 12: refused (R440). -/
def execThumbAddPc (_rd : LoReg) (_word8 : BitVec 8) (s : State) : Result := thumbRefused s
/-- Format 12: refused (R440). -/
def execThumbAddSp (_rd : LoReg) (_word8 : BitVec 8) (s : State) : Result := thumbRefused s
/-- Format 13: refused (R440). -/
def execThumbSpPlus (_sword7 : BitVec 7) (s : State) : Result := thumbRefused s
/-- Format 13: refused (R440). -/
def execThumbSpMinus (_sword7 : BitVec 7) (s : State) : Result := thumbRefused s
/-- Format 14: refused (R440). -/
def execThumbPush (_r : Bool) (_rlist : BitVec 8) (s : State) : Result := thumbRefused s
/-- Format 14: refused (R440). -/
def execThumbPop (_r : Bool) (_rlist : BitVec 8) (s : State) : Result := thumbRefused s
/-- Format 15: refused (R440). -/
def execThumbStmia (_rb : LoReg) (_rlist : BitVec 8) (s : State) : Result := thumbRefused s
/-- Format 15: refused (R440). -/
def execThumbLdmia (_rb : LoReg) (_rlist : BitVec 8) (s : State) : Result := thumbRefused s
/-- Format 16: refused (R440). -/
def execThumbBCond (_cond : BitVec 4) (_soffset8 : BitVec 8) (s : State) : Result := thumbRefused s
/-- Format 17: refused (R440). -/
def execThumbSwi (_value8 : BitVec 8) (s : State) : Result := thumbRefused s
/-- Format 16 with the reserved code 1110: refused (R440). -/
def execThumbUnd (_value8 : BitVec 8) (s : State) : Result := thumbRefused s
/-- Format 18: refused (R440). -/
def execThumbB (_offset11 : BitVec 11) (s : State) : Result := thumbRefused s
/-- Format 19: refused (R440). -/
def execThumbBlHigh (_offset11 : BitVec 11) (s : State) : Result := thumbRefused s
/-- Format 19: refused (R440). -/
def execThumbBlLow (_offset11 : BitVec 11) (s : State) : Result := thumbRefused s

end Sys2Proof.Machine
end

