-- ==== Sys2Proof/Machine/Transfer.lean ====
section
/-! DEFINITION. Single data transfer, halfword and signed transfer, and swap (R220 to R242). -/

namespace Sys2Proof.Machine

/-- The address checks a transfer makes beyond those of its mode, in the order of its rule: base = destination with writeback for a
load (R242), Rd = 15 where the rule forbids it, and an odd halfword address (R89). The order of the first
and the last is log entry 10 (DEDUCED). -/
def transferCheck (load : Bool) (rdPc : Option Unpredictability) (half : Bool) (rn rd : Reg) (ea : EffAddr) :
    Option Unpredictability :=
  if load = true ∧ ea.wb.isSome = true ∧ rn = rd then some .baseIsDestination
  else
    match rdPc with
    | some reason =>
      if rd = 15 then some reason else if half = true ∧ ea.addr.getLsbD 0 = true then some .misalignedHalfword else none
    | none => if half = true ∧ ea.addr.getLsbD 0 = true then some .misalignedHalfword else none

/-- A load: address, checks, bus pre-check of the accessed bytes, the value, the writeback, the destination (R226, R230, R242).
The destination and the writeback never name one register. -/
def loadOp (ea : Except Fault EffAddr) (rdPc : Option Unpredictability) (half : Bool) (bytes : Word → List Word)
    (value : State → Word → Word) (cond : Cond) (rn rd : Reg) (s : State) : Result :=
  armInstr cond s
    (match ea with
     | .error f => .fault f
     | .ok e =>
       match transferCheck true rdPc half rn rd e with
       | some reason => .fault (.unpredictable reason)
       | none => busCheck s .read (bytes e.addr) (finish rd (value s e.addr) (commitWb rn e.wb s)))

/-- A store: address, checks, bus pre-check, the bytes written, the writeback, the advance (R226, R231, R242). -/
def storeOp (ea : Except Fault EffAddr) (rdPc : Option Unpredictability) (half : Bool) (bytes : Word → List Word)
    (write : State → Word → State) (cond : Cond) (rn rd : Reg) (s : State) : Result :=
  armInstr cond s
    (match ea with
     | .error f => .fault f
     | .ok e =>
       match transferCheck false rdPc half rn rd e with
       | some reason => .fault (.unpredictable reason)
       | none => busCheck s .write (bytes e.addr) (.next ((commitWb rn e.wb (write s e.addr)).advance)))

/-- The bytes of a word access (R86 to R88). -/
def wordBytes (a : Word) : List Word := bytesFrom (align4 a) 4

/-- The bytes of a halfword access (R86, R89). -/
def halfBytes (a : Word) : List Word := bytesFrom a 2

/-- The byte of a byte access (R86). -/
def byteBytes (a : Word) : List Word := [a]

/-- A word load (R230). -/
def loadWord (ea : Except Fault EffAddr) : Cond → Reg → Reg → State → Result :=
  loadOp ea none false wordBytes (fun s a => s.loadRotated a)

/-- A word store; r15 stores its late read value (R231). -/
def storeWord (ea : Except Fault EffAddr) (cond : Cond) (rn rd : Reg) (s : State) : Result :=
  storeOp ea none false wordBytes (fun t a => t.writeWord (align4 a) (s.regLate rd)) cond rn rd s

/-- An unsigned byte load (R232). -/
def loadByte (ea : Except Fault EffAddr) : Cond → Reg → Reg → State → Result :=
  loadOp ea (some .ldrbToPc) false byteBytes (fun s a => (s.readByte a).setWidth 32)

/-- A byte store (R233). -/
def storeByte (ea : Except Fault EffAddr) (cond : Cond) (rn rd : Reg) (s : State) : Result :=
  storeOp ea (some .strbOfPc) false byteBytes (fun t a => t.writeByte a (fieldAt (s.reg rd) 0 8)) cond rn rd s

/-- LDR (R230). -/
def execLdr (cond : Cond) (idx : Index) (up : Bool) (rn rd : Reg) (off : Offset2) (s : State) : Result :=
  loadWord (modeTwo idx up rn off s) cond rn rd s

/-- STR (R231). -/
def execStr (cond : Cond) (idx : Index) (up : Bool) (rn rd : Reg) (off : Offset2) (s : State) : Result :=
  storeWord (modeTwo idx up rn off s) cond rn rd s

/-- LDRB (R232). -/
def execLdrb (cond : Cond) (idx : Index) (up : Bool) (rn rd : Reg) (off : Offset2) (s : State) : Result :=
  loadByte (modeTwo idx up rn off s) cond rn rd s

/-- STRB (R233). -/
def execStrb (cond : Cond) (idx : Index) (up : Bool) (rn rd : Reg) (off : Offset2) (s : State) : Result :=
  storeByte (modeTwo idx up rn off s) cond rn rd s

/-- LDRT: post-indexed with writeback, no privilege effect (R102, R221, R234). -/
def execLdrt (cond : Cond) (up : Bool) (rn rd : Reg) (off : Offset2) (s : State) : Result :=
  loadWord (modeTwo .postW up rn off s) cond rn rd s

/-- STRT (R235). -/
def execStrt (cond : Cond) (up : Bool) (rn rd : Reg) (off : Offset2) (s : State) : Result :=
  storeWord (modeTwo .postW up rn off s) cond rn rd s

/-- LDRBT (R234). -/
def execLdrbt (cond : Cond) (up : Bool) (rn rd : Reg) (off : Offset2) (s : State) : Result :=
  loadByte (modeTwo .postW up rn off s) cond rn rd s

/-- STRBT (R235). -/
def execStrbt (cond : Cond) (up : Bool) (rn rd : Reg) (off : Offset2) (s : State) : Result :=
  storeByte (modeTwo .postW up rn off s) cond rn rd s

/-- LDRH (R236). -/
def execLdrh (cond : Cond) (idx : Index) (up : Bool) (rn rd : Reg) (off : Offset3) (s : State) : Result :=
  loadOp (modeThree idx up rn off s) (some .ldrhToPc) true halfBytes (fun t a => (t.readHalf a).setWidth 32) cond rn rd s

/-- STRH (R237). -/
def execStrh (cond : Cond) (idx : Index) (up : Bool) (rn rd : Reg) (off : Offset3) (s : State) : Result :=
  storeOp (modeThree idx up rn off s) (some .strhOfPc) true halfBytes (fun t a => t.writeHalf a (fieldAt (s.reg rd) 0 16)) cond
    rn rd s

/-- LDRSB (R238). -/
def execLdrsb (cond : Cond) (idx : Index) (up : Bool) (rn rd : Reg) (off : Offset3) (s : State) : Result :=
  loadOp (modeThree idx up rn off s) (some .ldrsbToPc) false byteBytes (fun t a => (t.readByte a).signExtend 32) cond rn rd s

/-- LDRSH (R239). -/
def execLdrsh (cond : Cond) (idx : Index) (up : Bool) (rn rd : Reg) (off : Offset3) (s : State) : Result :=
  loadOp (modeThree idx up rn off s) (some .ldrshToPc) true halfBytes (fun t a => (t.readHalf a).signExtend 32) cond rn rd s

/-! ## Swap -/

/-- SWP and SWPB (R241): the operand checks, the pre-check of the read bytes and then of the written bytes, the load, the store, the
destination. -/
def swapOp (bytes : Word → List Word) (value : State → Word → Word) (write : State → Word → Word → State) (cond : Cond)
    (rn rd rm : Reg) (s : State) : Result :=
  armInstr cond s
    (if rn = 15 ∨ rd = 15 ∨ rm = 15 then .fault (.unpredictable .swpPcOperand)
     else if rn = rd ∨ rn = rm then .fault (.unpredictable .swpBaseOverlap)
     else
       let a := s.reg rn
       busCheck s .read (bytes a)
         (busCheck s .write (bytes a) (.next (((write s a (s.reg rm)).setReg rd (value s a)).advance))))

/-- SWP (R241). -/
def execSwp (cond : Cond) (rn rd rm : Reg) (s : State) : Result :=
  swapOp wordBytes (fun t a => t.loadRotated a) (fun t a v => t.writeWord (align4 a) v) cond rn rd rm s

/-- SWPB (R241). -/
def execSwpb (cond : Cond) (rn rd rm : Reg) (s : State) : Result :=
  swapOp byteBytes (fun t a => (t.readByte a).setWidth 32) (fun t a v => t.writeByte a (fieldAt v 0 8)) cond rn rd rm s

end Sys2Proof.Machine
end

