-- ==== Sys2Proof/Machine/Trap.lean ====
section
/-! DEFINITION. Software interrupt, the Undefined family and the coprocessor space (R400 to R412). The word an outcome reports is the
encoding of the instruction itself. -/

namespace Sys2Proof.Machine

/-- SWI (R400). -/
def execSwi (cond : Cond) (imm24 : BitVec 24) (s : State) : Result := armInstr cond s (softwareTrap imm24 s)

/-- The Undefined family (R410). -/
def execUnd (cond : Cond) (hi : BitVec 20) (lo : BitVec 4) (s : State) : Result :=
  armInstr cond s (undefinedTrap (encUnd cond hi lo) s)

/-- CDP: Undefined (R412). -/
def execCdp (cond : Cond) (hi : BitVec 19) (lo : BitVec 4) (s : State) : Result :=
  armInstr cond s (undefinedTrap (encCdp cond hi lo) s)

/-- MCR: Undefined (R412). -/
def execMcr (cond : Cond) (hi : BitVec 3) (mid : BitVec 15) (lo : BitVec 4) (s : State) : Result :=
  armInstr cond s (undefinedTrap (encMcr 0x0E000010 cond hi mid lo) s)

/-- MRC: Undefined (R412). -/
def execMrc (cond : Cond) (hi : BitVec 3) (mid : BitVec 15) (lo : BitVec 4) (s : State) : Result :=
  armInstr cond s (undefinedTrap (encMcr 0x0E100010 cond hi mid lo) s)

/-- STC: Undefined (R412). -/
def execStc (cond : Cond) (hi : BitVec 4) (lo : BitVec 20) (s : State) : Result :=
  armInstr cond s (undefinedTrap (encLdc 0x0C000000 cond hi lo) s)

/-- LDC: Undefined (R412). -/
def execLdc (cond : Cond) (hi : BitVec 4) (lo : BitVec 20) (s : State) : Result :=
  armInstr cond s (undefinedTrap (encLdc 0x0C100000 cond hi lo) s)

end Sys2Proof.Machine
end

