-- ==== Sys2Proof/Machine/Dispatch.lean ====
section
/-! DEFINITION. One arm for each instruction, in the order of the opcode table. -/

namespace Sys2Proof.Machine

def exec (i : Instr) (s : State) : Host.Outcome State Fault Refusal :=
  match i with
  | .and cond sf rn rd op => Sys2Proof.Machine.execAnd cond sf rn rd op s
  | .eor cond sf rn rd op => Sys2Proof.Machine.execEor cond sf rn rd op s
  | .sub cond sf rn rd op => Sys2Proof.Machine.execSub cond sf rn rd op s
  | .rsb cond sf rn rd op => Sys2Proof.Machine.execRsb cond sf rn rd op s
  | .add cond sf rn rd op => Sys2Proof.Machine.execAdd cond sf rn rd op s
  | .adc cond sf rn rd op => Sys2Proof.Machine.execAdc cond sf rn rd op s
  | .sbc cond sf rn rd op => Sys2Proof.Machine.execSbc cond sf rn rd op s
  | .rsc cond sf rn rd op => Sys2Proof.Machine.execRsc cond sf rn rd op s
  | .tst cond rn sbzRd op => Sys2Proof.Machine.execTst cond rn sbzRd op s
  | .teq cond rn sbzRd op => Sys2Proof.Machine.execTeq cond rn sbzRd op s
  | .cmp cond rn sbzRd op => Sys2Proof.Machine.execCmp cond rn sbzRd op s
  | .cmn cond rn sbzRd op => Sys2Proof.Machine.execCmn cond rn sbzRd op s
  | .orr cond sf rn rd op => Sys2Proof.Machine.execOrr cond sf rn rd op s
  | .mov cond sf sbzRn rd op => Sys2Proof.Machine.execMov cond sf sbzRn rd op s
  | .bic cond sf rn rd op => Sys2Proof.Machine.execBic cond sf rn rd op s
  | .mvn cond sf sbzRn rd op => Sys2Proof.Machine.execMvn cond sf sbzRn rd op s
  | .mul cond sf rd sbzRn rs rm => Sys2Proof.Machine.execMul cond sf rd sbzRn rs rm s
  | .mla cond sf rd rn rs rm => Sys2Proof.Machine.execMla cond sf rd rn rs rm s
  | .umull cond sf rdHi rdLo rs rm => Sys2Proof.Machine.execUmull cond sf rdHi rdLo rs rm s
  | .umlal cond sf rdHi rdLo rs rm => Sys2Proof.Machine.execUmlal cond sf rdHi rdLo rs rm s
  | .smull cond sf rdHi rdLo rs rm => Sys2Proof.Machine.execSmull cond sf rdHi rdLo rs rm s
  | .smlal cond sf rdHi rdLo rs rm => Sys2Proof.Machine.execSmlal cond sf rdHi rdLo rs rm s
  | .swp cond rn rd rm => Sys2Proof.Machine.execSwp cond rn rd rm s
  | .swpb cond rn rd rm => Sys2Proof.Machine.execSwpb cond rn rd rm s
  | .ldr cond idx up rn rd off => Sys2Proof.Machine.execLdr cond idx up rn rd off s
  | .str cond idx up rn rd off => Sys2Proof.Machine.execStr cond idx up rn rd off s
  | .ldrb cond idx up rn rd off => Sys2Proof.Machine.execLdrb cond idx up rn rd off s
  | .strb cond idx up rn rd off => Sys2Proof.Machine.execStrb cond idx up rn rd off s
  | .ldrt cond up rn rd off => Sys2Proof.Machine.execLdrt cond up rn rd off s
  | .strt cond up rn rd off => Sys2Proof.Machine.execStrt cond up rn rd off s
  | .ldrbt cond up rn rd off => Sys2Proof.Machine.execLdrbt cond up rn rd off s
  | .strbt cond up rn rd off => Sys2Proof.Machine.execStrbt cond up rn rd off s
  | .ldrh cond idx up rn rd off => Sys2Proof.Machine.execLdrh cond idx up rn rd off s
  | .strh cond idx up rn rd off => Sys2Proof.Machine.execStrh cond idx up rn rd off s
  | .ldrsb cond idx up rn rd off => Sys2Proof.Machine.execLdrsb cond idx up rn rd off s
  | .ldrsh cond idx up rn rd off => Sys2Proof.Machine.execLdrsh cond idx up rn rd off s
  | .ldmia cond wb rn list => Sys2Proof.Machine.execLdmia cond wb rn list s
  | .ldmib cond wb rn list => Sys2Proof.Machine.execLdmib cond wb rn list s
  | .ldmda cond wb rn list => Sys2Proof.Machine.execLdmda cond wb rn list s
  | .ldmdb cond wb rn list => Sys2Proof.Machine.execLdmdb cond wb rn list s
  | .stmia cond wb rn list => Sys2Proof.Machine.execStmia cond wb rn list s
  | .stmib cond wb rn list => Sys2Proof.Machine.execStmib cond wb rn list s
  | .stmda cond wb rn list => Sys2Proof.Machine.execStmda cond wb rn list s
  | .stmdb cond wb rn list => Sys2Proof.Machine.execStmdb cond wb rn list s
  | .ldmReturn cond form wb rn list => Sys2Proof.Machine.execLdmReturn cond form wb rn list s
  | .ldmUser cond form wb rn list => Sys2Proof.Machine.execLdmUser cond form wb rn list s
  | .stmUser cond form wb rn list => Sys2Proof.Machine.execStmUser cond form wb rn list s
  | .b cond imm24 => Sys2Proof.Machine.execB cond imm24 s
  | .bl cond imm24 => Sys2Proof.Machine.execBl cond imm24 s
  | .bx cond rm => Sys2Proof.Machine.execBx cond rm s
  | .mrs cond spsr rd => Sys2Proof.Machine.execMrs cond spsr rd s
  | .msrCpsrReg cond mask rm => Sys2Proof.Machine.execMsrCpsrReg cond mask rm s
  | .msrSpsrReg cond mask rm => Sys2Proof.Machine.execMsrSpsrReg cond mask rm s
  | .msrCpsrImm cond mask rot imm8 => Sys2Proof.Machine.execMsrCpsrImm cond mask rot imm8 s
  | .msrSpsrImm cond mask rot imm8 => Sys2Proof.Machine.execMsrSpsrImm cond mask rot imm8 s
  | .swi cond imm24 => Sys2Proof.Machine.execSwi cond imm24 s
  | .und cond hi lo => Sys2Proof.Machine.execUnd cond hi lo s
  | .cdp cond hi lo => Sys2Proof.Machine.execCdp cond hi lo s
  | .mcr cond hi mid lo => Sys2Proof.Machine.execMcr cond hi mid lo s
  | .mrc cond hi mid lo => Sys2Proof.Machine.execMrc cond hi mid lo s
  | .stc cond hi lo => Sys2Proof.Machine.execStc cond hi lo s
  | .ldc cond hi lo => Sys2Proof.Machine.execLdc cond hi lo s
  | .thumbLslImm offset5 rs rd => Sys2Proof.Machine.execThumbLslImm offset5 rs rd s
  | .thumbLsrImm offset5 rs rd => Sys2Proof.Machine.execThumbLsrImm offset5 rs rd s
  | .thumbAsrImm offset5 rs rd => Sys2Proof.Machine.execThumbAsrImm offset5 rs rd s
  | .thumbAddReg rn rs rd => Sys2Proof.Machine.execThumbAddReg rn rs rd s
  | .thumbSubReg rn rs rd => Sys2Proof.Machine.execThumbSubReg rn rs rd s
  | .thumbAddImm3 imm3 rs rd => Sys2Proof.Machine.execThumbAddImm3 imm3 rs rd s
  | .thumbSubImm3 imm3 rs rd => Sys2Proof.Machine.execThumbSubImm3 imm3 rs rd s
  | .thumbMovImm8 rd imm8 => Sys2Proof.Machine.execThumbMovImm8 rd imm8 s
  | .thumbCmpImm8 rd imm8 => Sys2Proof.Machine.execThumbCmpImm8 rd imm8 s
  | .thumbAddImm8 rd imm8 => Sys2Proof.Machine.execThumbAddImm8 rd imm8 s
  | .thumbSubImm8 rd imm8 => Sys2Proof.Machine.execThumbSubImm8 rd imm8 s
  | .thumbAndAlu rs rd => Sys2Proof.Machine.execThumbAndAlu rs rd s
  | .thumbEorAlu rs rd => Sys2Proof.Machine.execThumbEorAlu rs rd s
  | .thumbLslAlu rs rd => Sys2Proof.Machine.execThumbLslAlu rs rd s
  | .thumbLsrAlu rs rd => Sys2Proof.Machine.execThumbLsrAlu rs rd s
  | .thumbAsrAlu rs rd => Sys2Proof.Machine.execThumbAsrAlu rs rd s
  | .thumbAdcAlu rs rd => Sys2Proof.Machine.execThumbAdcAlu rs rd s
  | .thumbSbcAlu rs rd => Sys2Proof.Machine.execThumbSbcAlu rs rd s
  | .thumbRorAlu rs rd => Sys2Proof.Machine.execThumbRorAlu rs rd s
  | .thumbTstAlu rs rd => Sys2Proof.Machine.execThumbTstAlu rs rd s
  | .thumbNegAlu rs rd => Sys2Proof.Machine.execThumbNegAlu rs rd s
  | .thumbCmpAlu rs rd => Sys2Proof.Machine.execThumbCmpAlu rs rd s
  | .thumbCmnAlu rs rd => Sys2Proof.Machine.execThumbCmnAlu rs rd s
  | .thumbOrrAlu rs rd => Sys2Proof.Machine.execThumbOrrAlu rs rd s
  | .thumbMulAlu rs rd => Sys2Proof.Machine.execThumbMulAlu rs rd s
  | .thumbBicAlu rs rd => Sys2Proof.Machine.execThumbBicAlu rs rd s
  | .thumbMvnAlu rs rd => Sys2Proof.Machine.execThumbMvnAlu rs rd s
  | .thumbAddHi h1 h2 rs rd => Sys2Proof.Machine.execThumbAddHi h1 h2 rs rd s
  | .thumbCmpHi h1 h2 rs rd => Sys2Proof.Machine.execThumbCmpHi h1 h2 rs rd s
  | .thumbMovHi h1 h2 rs rd => Sys2Proof.Machine.execThumbMovHi h1 h2 rs rd s
  | .thumbBx h1 h2 rs rd => Sys2Proof.Machine.execThumbBx h1 h2 rs rd s
  | .thumbLdrPc rd word8 => Sys2Proof.Machine.execThumbLdrPc rd word8 s
  | .thumbStrRegOff ro rb rd => Sys2Proof.Machine.execThumbStrRegOff ro rb rd s
  | .thumbStrbRegOff ro rb rd => Sys2Proof.Machine.execThumbStrbRegOff ro rb rd s
  | .thumbLdrRegOff ro rb rd => Sys2Proof.Machine.execThumbLdrRegOff ro rb rd s
  | .thumbLdrbRegOff ro rb rd => Sys2Proof.Machine.execThumbLdrbRegOff ro rb rd s
  | .thumbStrhRegOff ro rb rd => Sys2Proof.Machine.execThumbStrhRegOff ro rb rd s
  | .thumbLdsbRegOff ro rb rd => Sys2Proof.Machine.execThumbLdsbRegOff ro rb rd s
  | .thumbLdrhRegOff ro rb rd => Sys2Proof.Machine.execThumbLdrhRegOff ro rb rd s
  | .thumbLdshRegOff ro rb rd => Sys2Proof.Machine.execThumbLdshRegOff ro rb rd s
  | .thumbStrImmOff offset5 rb rd => Sys2Proof.Machine.execThumbStrImmOff offset5 rb rd s
  | .thumbLdrImmOff offset5 rb rd => Sys2Proof.Machine.execThumbLdrImmOff offset5 rb rd s
  | .thumbStrbImmOff offset5 rb rd => Sys2Proof.Machine.execThumbStrbImmOff offset5 rb rd s
  | .thumbLdrbImmOff offset5 rb rd => Sys2Proof.Machine.execThumbLdrbImmOff offset5 rb rd s
  | .thumbStrhImmOff offset5 rb rd => Sys2Proof.Machine.execThumbStrhImmOff offset5 rb rd s
  | .thumbLdrhImmOff offset5 rb rd => Sys2Proof.Machine.execThumbLdrhImmOff offset5 rb rd s
  | .thumbStrSp rd word8 => Sys2Proof.Machine.execThumbStrSp rd word8 s
  | .thumbLdrSp rd word8 => Sys2Proof.Machine.execThumbLdrSp rd word8 s
  | .thumbAddPc rd word8 => Sys2Proof.Machine.execThumbAddPc rd word8 s
  | .thumbAddSp rd word8 => Sys2Proof.Machine.execThumbAddSp rd word8 s
  | .thumbSpPlus sword7 => Sys2Proof.Machine.execThumbSpPlus sword7 s
  | .thumbSpMinus sword7 => Sys2Proof.Machine.execThumbSpMinus sword7 s
  | .thumbPush r rlist => Sys2Proof.Machine.execThumbPush r rlist s
  | .thumbPop r rlist => Sys2Proof.Machine.execThumbPop r rlist s
  | .thumbStmia rb rlist => Sys2Proof.Machine.execThumbStmia rb rlist s
  | .thumbLdmia rb rlist => Sys2Proof.Machine.execThumbLdmia rb rlist s
  | .thumbBCond cond soffset8 => Sys2Proof.Machine.execThumbBCond cond soffset8 s
  | .thumbSwi value8 => Sys2Proof.Machine.execThumbSwi value8 s
  | .thumbUnd value8 => Sys2Proof.Machine.execThumbUnd value8 s
  | .thumbB offset11 => Sys2Proof.Machine.execThumbB offset11 s
  | .thumbBlHigh offset11 => Sys2Proof.Machine.execThumbBlHigh offset11 s
  | .thumbBlLow offset11 => Sys2Proof.Machine.execThumbBlLow offset11 s

end Sys2Proof.Machine
end

