-- ==== Sys2Proof/Machine/Opcode.lean ====
section
/-! DEFINITION. The CORE's own step, `Step(state, opcode)`, on an opcode that the driver supplies (R16, R175, D1). -/

namespace Sys2Proof.Machine

/-- Step(state, opcode) (R16): the opcode is all 32 bits in ARM state and the low 16 bits in THUMB state (R110), and need not be what
memory holds at the PC. In THUMB state every opcode is refused (R440), whether or not it decodes; in ARM state an opcode the decoder
rejects is an illegal word (R133, R411). -/
def stepOpcode (s : State) (opcode : Word) : Result :=
  if s.t then
    match decodeThumb (fieldAt opcode 0 16) with
    | .ok i => exec i s
    | .error _ => thumbRefused s
  else
    match decodeArm opcode with
    | .ok i => exec i s
    | .error _ => illegalWord opcode s

end Sys2Proof.Machine
end

