-- ==== Sys2Proof/Machine/Step.lean ====
section
/-! DEFINITION. One turn of the driver's loop (R95): fetch the opcode at the PC and step the CORE with it. -/

namespace Sys2Proof.Machine

/-- One turn of the driver's loop (R95): the halfword at the PC in THUMB state, the word at the PC in ARM state, given to
Step(state, opcode) (R16). A fetch that meets a bus error stops it (log entry 7). -/
def step (s : State) : Host.Outcome State Fault Refusal :=
  if s.t then stepOpcode s ((fetchThumb s).setWidth 32)
  else
    match fetchArm s with
    | .error f => .fault f
    | .ok w => stepOpcode s w

/-- The state with the instruction of a row of the opcode table stored where `step` fetches next (log entry 7): T selects the
instruction set of the row's length, the bytes at the PC hold it, and bus_ok lets them be read. -/
def State.withFetchWord (s : State) (nbits w : Nat) : State := placeCode s (tableCode nbits w)

end Sys2Proof.Machine
end

