-- ==== Sys2Proof/Machine/Driver.lean ====
section
/-! DEFINITION. What the driver may do between steps (R54 to R57, R455, R461, R470 to R472) and the reset operation (R490 to R492).
None of it is part of a step (log entry 11). -/

namespace Sys2Proof.Machine

/-! ## Reset -/

/-- The constraints on the reset parameters: a privileged mode and a word-aligned PC (R490). -/
def ResetParams.valid (p : ResetParams) : Bool := p.mode.privileged && pcAligned false p.pc

/-- The CPSR after reset: N, Z, C, V, Q from the free word, bits 26:8 zero, T = 0, I, F and M from the parameters (R490). -/
def ResetParams.cpsr (p : ResetParams) (free : Word) : Word :=
  (free &&& 0xF8000000) ||| placeBit 7 p.i ||| placeBit 6 p.f ||| place 0 p.mode.bits

/-- A bank of free values with the reserved bits of the PSRs cleared (R53). -/
def freeBank (free : Vector Word 37) : Vector Word 37 :=
  ((((free.set 32 (free[32] &&& psrMask)).set 33 (free[33] &&& psrMask)).set 34 (free[34] &&& psrMask)).set 35
    (free[35] &&& psrMask)).set 36 (free[36] &&& psrMask)

/-- Reset(params) (R490) over a bank `free` of the values the spec leaves unspecified; the bus is not touched (R492). None where the
parameters are not a valid set. -/
def resetWith (p : ResetParams) (free : Vector Word 37) (s : State) : Option State :=
  if p.valid then
    some { s with
      phys := (((((freeBank free).set 18 p.spUsr).set 22 p.spIrq).set 28 p.spUnd).set 30 p.pc).set 31 (p.cpsr free[31])
      mode := p.mode }
  else none

/-! ## The register inspection API -/

/-- Map(cpsr.M, i) for i in 0..16 (R35, R55). -/
def hostSlot (s : State) (i : Fin 17) : Slot :=
  if h : i.val < 16 then mapReg s.mode ⟨i.val, h⟩ else cpsrSlot

/-- host_read(i): the slot itself, with no read offset (R55). -/
def hostRead (i : Fin 17) (s : State) : Word := s.slot (hostSlot s i)

/-- host_write(i, v): no alignment check; i = 16 is a CPSR write, refused for an invalid mode (R55). None where it is refused. -/
def hostWrite (i : Fin 17) (v : Word) (s : State) : Option State :=
  if i.val < 16 then some (s.setSlot (hostSlot s i) v)
  else
    match Mode.ofBits (fieldAt v 0 5) with
    | some m => some (s.loadCpsr m v)
    | none => none

/-- host_read_spsr() (R56). -/
def hostReadSpsr (s : State) : Except Fault Word :=
  match s.curSpsr with
  | some v => .ok v
  | none => .error (.invalidModeAccess .read)

/-- host_write_spsr(v) (R56). -/
def hostWriteSpsr (v : Word) (s : State) : Except Fault State :=
  match s.curSpsr with
  | some _ => .ok (s.setSpsr v)
  | none => .error (.invalidModeAccess .write)

/-- host_enter_mode(m), refused for a value that is no mode (R56). -/
def hostEnterMode (bits : BitVec 5) (s : State) : Option State :=
  match Mode.ofBits bits with
  | some m => some (s.enterMode m)
  | none => none

/-- host_enter_exception(kind): an IRQ is refused when I = 1, an FIQ when F = 1 (R461). None where it is refused. -/
def hostEnterException (kind : ExceptionKind) (s : State) : Option State :=
  match kind with
  | .irq => if s.cpsr.getLsbD 7 then none else some (enterException .irq s)
  | .fiq => if s.cpsr.getLsbD 6 then none else some (enterException .fiq s)
  | .und => some (enterException .und s)
  | .swi => some (enterException .swi s)
  | .pabt => some (enterException .pabt s)
  | .dabt => some (enterException .dabt s)

/-! ## What the driver does after an outcome -/

/-- Skip the reporting instruction: host_write(15, pc + 4) (R453, R455). -/
def hostSkip (s : State) : State := s.setSlot pcSlot (s.pc + 4)

/-- The exception the driver enters for a stop, if it traps: one for each outcome that has one, and the prefetch abort for a failed
fetch, which is no outcome of the CORE but the driver's own event (R95, R455). -/
def trapKind : Fault → Option ExceptionKind
  | .undefined _ => some .und
  | .softwareInterrupt _ => some .swi
  | .busError _ _ => some .dabt
  | .fetchBusError _ => some .pabt
  | .invalidModeAccess _ => none
  | .unpredictable _ => none

/-- The trap for a stop entered (R455). -/
def hostTrap (f : Fault) (s : State) : State :=
  match trapKind f with
  | some kind => enterException kind s
  | none => s

/-! ## Simultaneous events -/

/-- An interrupt delivered if it is pending and not masked (R461, R472). -/
def deliver (kind : ExceptionKind) (pending : Bool) (s : State) : State :=
  if pending then (hostEnterException kind s).getD s else s

/-- The two interrupts in their order: FIQ, then IRQ (R472). -/
def deliverInterrupts (fiq irq : Bool) (s : State) : State := deliver .irq irq (deliver .fiq fiq s)

/-- Whether a pending interrupt is not masked, so that one is taken at this point (R461). -/
def interruptDue (fiq irq : Bool) (s : State) : Bool := (fiq && !s.cpsr.getLsbD 6) || (irq && !s.cpsr.getLsbD 7)

/-- What the driver has to deliver at one point between steps (R472): a reset with its parameters and the values R53 leaves
unspecified, the stop of the last step that the driver traps, and the pending interrupts. -/
structure Events where
  reset : Option (ResetParams × Vector Word 37)
  stop : Option Fault
  fiq : Bool
  irq : Bool
  deriving DecidableEq, Repr

/-- The order below a reset (R472): the trap of an outcome, a data abort among them, is entered first, then FIQ, then IRQ. A failed
fetch is no outcome (R95), and its prefetch abort comes after both interrupts: where one is taken, the PC is no longer that of the
failed fetch, and no prefetch abort is entered (DEDUCED, log entry 11). -/
def deliverStop (stop : Option Fault) (fiq irq : Bool) (s : State) : State :=
  match stop with
  | none => deliverInterrupts fiq irq s
  | some (.fetchBusError a) =>
    if interruptDue fiq irq s then deliverInterrupts fiq irq s else hostTrap (.fetchBusError a) s
  | some f => deliverInterrupts fiq irq (hostTrap f s)

/-- The priority of simultaneous events (R472). A reset is the highest: the stop of the step before it lapses with the state it
stopped in, and a pending interrupt is held against the masks the reset leaves (DEDUCED, log entry 11). A reset whose parameters
R490 does not allow is none. -/
def deliverAll (e : Events) (s : State) : State :=
  match e.reset.bind (fun r => resetWith r.1 r.2 s) with
  | some s' => deliverInterrupts e.fiq e.irq s'
  | none => deliverStop e.stop e.fiq e.irq s

end Sys2Proof.Machine
end

