-- ==== Sys2Proof/Safety.lean ====
section
/-! DEFINITION. What every reachable state satisfies, and what counts as a safe run, and the terms the claims are stated in. -/

namespace Sys2Proof.Machine

/-- The mapping table in force is that of the CPSR's mode field, so the mode field is a legal mode (R35, R51, R476). -/
def State.mapped (s : State) : Bool := fieldAt s.cpsr 0 5 == s.mode.bits

/-- Bits 26:8 of a PSR, the reserved ones. -/
def psrReserved (w : Word) : BitVec 19 := fieldAt w 8 19

/-- Bits 26:8 of the CPSR and of every SPSR read as zero (R49). -/
def State.reservedClear (s : State) : Bool :=
  psrReserved s.cpsr == 0 && psrReserved (s.slot 32) == 0 && psrReserved (s.slot 33) == 0 && psrReserved (s.slot 34) == 0
    && psrReserved (s.slot 35) == 0 && psrReserved (s.slot 36) == 0

/-- The PC is aligned for the instruction set in force (R42, R95). -/
def State.pcOk (s : State) : Bool := pcAligned s.t s.pc

/-- The invariant of a run: R35 and R51, R49, R42, and the canonical form of memory. -/
structure State.Inv (s : State) : Prop where
  mapped : s.mapped = true
  reserved : s.reservedClear = true
  pc : s.pcOk = true
  mem : s.mem.wf = true

/-- The parameters of the model that no step writes (R11). -/
structure SameParams (s t : State) : Prop where
  pcReadModel : t.pcReadModel = s.pcReadModel
  mulsCPolicy : t.mulsCPolicy = s.mulsCPolicy
  trapPolicy : t.trapPolicy = s.trapPolicy
  busHoles : t.busHoles = s.busHoles

/-- A next state of the driver's loop, or of the CORE with any opcode that a driver supplies (R16, R95). -/
abbrev Steps (s t : State) : Prop := step s = .next t ∨ ∃ opcode, stepOpcode s opcode = .next t

/-- An answer to an ARM opcode: the CORE's, given it (R16), or that of the loop, where its fetch reads it (R95). -/
abbrev Answers (s : State) (opcode : Word) (r : Result) : Prop :=
  r = stepOpcode s opcode ∨ (fetchArm s = .ok opcode ∧ r = step s)

/-- A run of `k` steps in which every outcome is Next, from one state to another. -/
def Runs : Nat → State → State → Prop
  | 0, s, t => s = t
  | k + 1, s, t => ∃ m, step s = .next m ∧ Runs k m t

/-- A state from which the next `k` steps all end with Next: no fault and no refusal. -/
def SafeFor (k : Nat) (s : State) : Prop := ∃ t, Runs k s t

/-! ## The terms claims use -/

/-- An ARM instruction whose condition passes in ARM state: it is not refused (R440) and is no no-op (R173). -/
abbrev Executes (c : Cond) (s : State) : Prop := s.t = false ∧ condPasses c s.cpsr = true

/-- bus_ok for every byte of an access (R92). -/
abbrev BusOk (s : State) (d : Dir) (as : List Word) : Prop := ∀ a ∈ as, s.busOk a d = true

/-- The first byte of an access at which bus_ok is false (R92). -/
abbrev FirstBad (s : State) (d : Dir) (as : List Word) (a : Word) : Prop :=
  ∃ before after, as = before ++ a :: after ∧ BusOk s d before ∧ s.busOk a d = false

/-- What a step leaves unchanged: every slot but those of `ks`, every byte but those of `ms`, and the parameters. -/
structure Frame (s t : State) (ks : List Slot) (ms : List Word) : Prop where
  slots : ∀ k, k ∉ ks → t.slot k = s.slot k
  bytes : ∀ a, a ∉ ms → t.readByte a = s.readByte a
  params : SameParams s t

/-- A frame in which the mode stays as well. -/
abbrev Keeps (s t : State) (ks : List Slot) (ms : List Word) : Prop := Frame s t ks ms ∧ t.mode = s.mode

/-- The four flags of a state. -/
abbrev FlagsAre (t : State) (n z c v : Bool) : Prop := t.n = n ∧ t.z = z ∧ t.c = c ∧ t.v = v

/-- Bits 27:0 of the CPSR, all but the four flags, as before. -/
abbrev SamePsrRest (s t : State) : Prop := fieldAt t.cpsr 0 28 = fieldAt s.cpsr 0 28

/-- A word-aligned value. -/
abbrev Aligned (v : Word) : Prop := fieldAt v 0 2 = 0

/-- A mode with no SPSR (R48). -/
abbrev NoSpsr (s : State) : Prop := s.mode = .user ∨ s.mode = .system

/-- A data-processing opcode as its rule gives it: the instruction, its result from Rn, the operand and C, and the C and V it
leaves, from Rn, the operand, C and the shifter's carry-out or the old V (R351, R352, R356 to R371). -/
structure DataRow (μ : Type) where
  make : μ
  value : Word → Word → Bool → Word
  carry : Word → Word → Bool → Bool → Bool
  overflow : Word → Word → Bool → Bool → Bool

/-- The constructors of the opcodes with a result. -/
abbrev ResultMaker := Cond → Bool → Reg → Reg → ShifterOperand → Instr

/-- The constructors of the test opcodes. -/
abbrev TestMaker := Cond → Reg → Reg → ShifterOperand → Instr

/-- A logical opcode: C is the shifter's carry-out and V is kept (R351). -/
def DataRow.logic {μ : Type} (make : μ) (f : Word → Word → Word) : DataRow μ :=
  { make := make, value := fun a b _ => f a b, carry := fun _ _ _ sc => sc, overflow := fun _ _ _ v => v }

/-- Outside the signed 32-bit range (R352). -/
def outOfRange (i : Int) : Bool := decide (i < -2 ^ 31 ∨ 2 ^ 31 - 1 < i)

/-- A difference `a - b`: C is "no borrow" (R352, R358, R366). -/
def DataRow.minus {μ : Type} (make : μ) : DataRow μ :=
  { make := make
    value := fun a b _ => a - b
    carry := fun a b _ _ => decide (b.toNat ≤ a.toNat)
    overflow := fun a b _ _ => outOfRange (a.toInt - b.toInt) }

/-- A sum `a + b` (R352, R360, R367). -/
def DataRow.plus {μ : Type} (make : μ) : DataRow μ :=
  { make := make
    value := fun a b _ => a + b
    carry := fun a b _ _ => decide (2 ^ 32 ≤ a.toNat + b.toNat)
    overflow := fun a b _ _ => outOfRange (a.toInt + b.toInt) }

/-- The logical opcodes with a result (R356, R357, R368 to R371). -/
def logicalRows : List (DataRow ResultMaker) :=
  [ .logic .and (fun a b => a &&& b), .logic .eor (fun a b => a ^^^ b), .logic .orr (fun a b => a ||| b),
    .logic .mov (fun _ b => b), .logic .bic (fun a b => a &&& ~~~b), .logic .mvn (fun _ b => ~~~b) ]

/-- The arithmetic opcodes with a result (R358 to R363). -/
def arithmeticRows : List (DataRow ResultMaker) :=
  [ .minus .sub,
    { make := .rsb
      value := fun a b _ => b - a
      carry := fun a b _ _ => decide (a.toNat ≤ b.toNat)
      overflow := fun a b _ _ => outOfRange (b.toInt - a.toInt) },
    .plus .add,
    { make := .adc
      value := fun a b c => a + b + BitVec.ofNat 32 c.toNat
      carry := fun a b c _ => decide (2 ^ 32 ≤ a.toNat + b.toNat + c.toNat)
      overflow := fun a b c _ => outOfRange (a.toInt + b.toInt + c.toNat) },
    { make := .sbc
      value := fun a b c => a - b - BitVec.ofNat 32 (!c).toNat
      carry := fun a b c _ => decide (b.toNat + (!c).toNat ≤ a.toNat)
      overflow := fun a b c _ => outOfRange (a.toInt - b.toInt - (!c).toNat) },
    { make := .rsc
      value := fun a b c => b - a - BitVec.ofNat 32 (!c).toNat
      carry := fun a b c _ => decide (a.toNat + (!c).toNat ≤ b.toNat)
      overflow := fun a b c _ => outOfRange (b.toInt - a.toInt - (!c).toNat) } ]

/-- The test opcodes (R364 to R367). -/
def testRows : List (DataRow TestMaker) :=
  [ .logic .tst (fun a b => a &&& b), .logic .teq (fun a b => a ^^^ b), .minus .cmp, .plus .cmn ]

/-- A multiply-long instruction with its result from Rm, Rs, RdHi and RdLo. -/
abbrev ResultLong := (Cond → Bool → Reg → Reg → Reg → Reg → Instr) × (Word → Word → Word → Word → BitVec 64)

/-- The multiply-long opcodes with their 64-bit results from Rm, Rs, RdHi and RdLo (R334 to R337). -/
def longMultiplyRows : List ResultLong :=
  [ (.umull, fun m x _ _ => m.zeroExtend 64 * x.zeroExtend 64),
    (.umlal, fun m x hi lo => m.zeroExtend 64 * x.zeroExtend 64 + (hi ++ lo : BitVec (32 + 32))),
    (.smull, fun m x _ _ => m.signExtend 64 * x.signExtend 64),
    (.smlal, fun m x hi lo => m.signExtend 64 * x.signExtend 64 + (hi ++ lo : BitVec (32 + 32))) ]

end Sys2Proof.Machine

namespace Sys2Proof
open Machine

/-- The offset of mode 2 does not name r15 (R224). -/
def Offset2.usable : Offset2 → Bool
  | .imm _ => true
  | .reg _ _ rm => rm != 15

/-- The offset of mode 3 does not name r15 (R228). -/
def Offset3.usable : Offset3 → Bool
  | .imm _ => true
  | .reg rm => rm != 15

/-- The value of a mode-2 offset (R222 to R224). -/
def Offset2.value (off : Offset2) (s : State) : Word :=
  match off with
  | .imm o => o.setWidth 32
  | .reg amount ty rm => (shiftOperand (.immShift amount ty rm) s).value

/-- The value of a mode-3 offset (R227, R228). -/
def Offset3.value (off : Offset3) (s : State) : Word :=
  match off with
  | .imm o => o.setWidth 32
  | .reg rm => s.reg rm

/-- Whether an indexing form writes the base back (R221). -/
def Index.writesBack : Index → Bool
  | .offset => false
  | .pre | .post | .postW => true

/-- The instructions that write a flag (R46). -/
def Instr.writesFlags : Instr → Bool
  | .and _ sf .. | .eor _ sf .. | .sub _ sf .. | .rsb _ sf .. | .add _ sf .. | .adc _ sf .. | .sbc _ sf .. | .rsc _ sf ..
  | .orr _ sf .. | .mov _ sf .. | .bic _ sf .. | .mvn _ sf .. => sf
  | .mul _ sf .. | .mla _ sf .. | .umull _ sf .. | .umlal _ sf .. | .smull _ sf .. | .smlal _ sf .. => sf
  | .tst .. | .teq .. | .cmp .. | .cmn .. => true
  | .msrCpsrReg _ mask _ => mask.getLsbD 3
  | .msrCpsrImm _ mask _ _ => mask.getLsbD 3
  | .ldmReturn .. => true
  | _ => false

/-- The instructions that reach memory (R81). -/
def Instr.touchesMemory : Instr → Bool
  | .ldr .. | .str .. | .ldrb .. | .strb .. | .ldrt .. | .strt .. | .ldrbt .. | .strbt .. => true
  | .ldrh .. | .strh .. | .ldrsb .. | .ldrsh .. => true
  | .ldmia .. | .ldmib .. | .ldmda .. | .ldmdb .. | .stmia .. | .stmib .. | .stmda .. | .stmdb .. => true
  | .ldmReturn .. | .ldmUser .. | .stmUser .. | .swp .. | .swpb .. => true
  | _ => false

/-- The exception-return instructions: data processing with S = 1 and Rd = 15, and LDM
with S = 1 and r15 in the list (R465). -/
def Instr.returns : Instr → Bool
  | .and _ sf _ rd _ | .eor _ sf _ rd _ | .sub _ sf _ rd _ | .rsb _ sf _ rd _ | .add _ sf _ rd _ | .adc _ sf _ rd _
  | .sbc _ sf _ rd _ | .rsc _ sf _ rd _ | .orr _ sf _ rd _ | .mov _ sf _ rd _ | .bic _ sf _ rd _ | .mvn _ sf _ rd _ =>
    sf && rd == 15
  | .ldmReturn .. => true
  | _ => false

end Sys2Proof

namespace Sys2Proof.Machine

/-- Rn plus or minus the offset (R221). -/
def moved (up : Bool) (base offset : Word) : Word := if up then base + offset else base - offset

/-- The address of an indexing form (R221, R225). -/
def address (idx : Index) (up : Bool) (base offset : Word) : Word := (effAddr idx up base offset).addr

/-- A single data transfer of mode 2 as its rule gives it: how to write the instruction, its indexing form, whether it moves a byte. -/
structure TransferRow where
  make : Cond → Bool → Reg → Reg → Offset2 → Instr
  idx : Index
  byte : Bool

/-- LDR, LDRB and their T forms, in every indexing form (R221, R230, R232, R234). -/
def loadRows : List TransferRow :=
  [ ⟨fun c => .ldr c .offset, .offset, false⟩, ⟨fun c => .ldr c .pre, .pre, false⟩, ⟨fun c => .ldr c .post, .post, false⟩,
    ⟨.ldrt, .post, false⟩, ⟨fun c => .ldrb c .offset, .offset, true⟩, ⟨fun c => .ldrb c .pre, .pre, true⟩,
    ⟨fun c => .ldrb c .post, .post, true⟩, ⟨.ldrbt, .post, true⟩ ]

/-- STR, STRB and their T forms, in every indexing form (R221, R231, R233, R235). -/
def storeRows : List TransferRow :=
  [ ⟨fun c => .str c .offset, .offset, false⟩, ⟨fun c => .str c .pre, .pre, false⟩, ⟨fun c => .str c .post, .post, false⟩,
    ⟨.strt, .post, false⟩, ⟨fun c => .strb c .offset, .offset, true⟩, ⟨fun c => .strb c .pre, .pre, true⟩,
    ⟨fun c => .strb c .post, .post, true⟩, ⟨.strbt, .post, true⟩ ]

/-- The bytes a mode-2 transfer touches (R86 to R88). -/
def TransferRow.bytes (row : TransferRow) (a : Word) : List Word := if row.byte then byteBytes a else wordBytes a

/-- A mode-3 load as its rule gives it: the instruction, whether it moves a halfword, the extension of the value (R236, R238, R239). -/
structure HalfRow where
  make : Cond → Index → Bool → Reg → Reg → Offset3 → Instr
  half : Bool
  signed : Bool
  rdPc : Unpredictability

/-- LDRH, LDRSB, LDRSH (R236, R238, R239). -/
def halfLoadRows : List HalfRow :=
  [ ⟨.ldrh, true, false, .ldrhToPc⟩, ⟨.ldrsb, false, true, .ldrsbToPc⟩, ⟨.ldrsh, true, true, .ldrshToPc⟩ ]

/-- The value a mode-3 load delivers (R236, R238, R239). -/
def HalfRow.value (row : HalfRow) (s : State) (a : Word) : Word :=
  match row.half, row.signed with
  | true, true => (s.readHalf a).signExtend 32
  | true, false => (s.readHalf a).zeroExtend 32
  | false, true => (s.readByte a).signExtend 32
  | false, false => (s.readByte a).zeroExtend 32

/-- The bytes a mode-3 transfer touches (R86, R89). -/
def HalfRow.bytes (row : HalfRow) (a : Word) : List Word := if row.half then halfBytes a else byteBytes a

/-- The four LDM forms with S = 0 (R280, R286). -/
def ldmRows : List (BlockForm × (Cond → Bool → Reg → BitVec 16 → Instr)) :=
  [(.ia, .ldmia), (.ib, .ldmib), (.da, .ldmda), (.db, .ldmdb)]

/-- The four STM forms with S = 0 (R280, R287). -/
def stmRows : List (BlockForm × (Cond → Bool → Reg → BitVec 16 → Instr)) :=
  [(.ia, .stmia), (.ib, .stmib), (.da, .stmda), (.db, .stmdb)]

/-- How many registers of a list are below `r` (R283). -/
def lowerCount (list : BitVec 16) (r : Reg) : Nat := allRegs.countP (fun i => decide (i < r) && list.getLsbD i.val)

/-- The address at which a block transfer accesses register `r` (R90, R283). -/
def wordAddress (form : BlockForm) (b : Word) (list : BitVec 16) (r : Reg) : Word :=
  align4 (blockStart form b list + BitVec.ofNat 32 (4 * lowerCount list r))

/-- Every byte a block transfer accesses, in order (R96). -/
def blockBytes (form : BlockForm) (b : Word) (list : BitVec 16) : List Word := transferBytes (transfers form b list)

/-- The slots of a list's registers r0..r14 in a mode's bank. -/
def bankSlots (m : Mode) (list : BitVec 16) : List Slot := ((regsOf list).filter (fun r => r != 15)).map (mapReg m)

/-- The slot of the base register, where it is written back. -/
def baseSlot (m : Mode) (wb : Bool) (rn : Reg) : List Slot := if wb then [mapReg m rn] else []

/-- The bits of a PSR that MSR writes (R49, R392, R393): the stored bits of the flags byte under f, the control byte under c. -/
def msrWrites (control : Bool) (mask : BitVec 4) (i : Nat) : Bool :=
  (decide (27 ≤ i) && mask.getLsbD 3) || (decide (i < 8) && mask.getLsbD 0 && control)

/-- The same answer with the memory of its next state replaced. -/
def withMem (m : Memory) : Result → Result
  | .next t => .next { t with mem := m }
  | .fault f => .fault f
  | .refused r => .refused r

/-- The slots User mode reaches: r0..r12, r13_usr, r14_usr, the PC and the CPSR (R30, R35). -/
def userSlots : List Slot := [0, 1, 2, 3, 4, 5, 6, 7, 8, 9, 10, 11, 12, 18, 19, 30, 31]

end Sys2Proof.Machine
end

