-- ==== Sys2Proof/Certificates/Slice0/Obligations.lean ====
section
/-! DEFINITION. The statements for the provers. The terms they use are those of Safety.lean. -/

section
open Sys2Proof Sys2Proof.Machine

/-! ## Encoding and decoding -/

/-- Every well-formed instruction is read back from its own bytes, whatever follows them (R112 to R125, R140, R141). -/
def Obligations.DecodeOfEncode : Prop :=
  ∀ (i : Instr) (rest : List Byte), i.WellFormed → decodeBytes i.isThumb (encodeBytes i ++ rest) = .ok (i, rest)

/-- Every opcode that decodes has one meaning and keeps every bit: its instruction is well-formed and encodes to that opcode. -/
def Obligations.EncodeOfDecode : Prop :=
  ∀ (c : Code) (i : Instr), decodeCode c = .ok i → i.WellFormed ∧ encode i = c ∧ i.isThumb = Code.inThumb c

/-- Words written out in 95_test_vectors.md decode to the instructions they stand for. -/
def Obligations.SampleWordsDecode : Prop :=
  decodeArm 0xE0910002 = .ok (.add .al true 1 0 (.immShift 0 .lsl 2))
    ∧ decodeArm 0xE3510005 = .ok (.cmp .al 1 0 (.imm 0 5))
    ∧ decodeArm 0xE0203291 = .ok (.mla .al false 0 3 2 1)
    ∧ decodeArm 0xE4910004 = .ok (.ldr .al .post true 1 0 (.imm 4))
    ∧ decodeArm 0xE0C100B2 = .ok (.strh .al .post true 1 0 (.imm 2))
    ∧ decodeArm 0xE92D4010 = .ok (.stmdb .al true 13 0x4010)
    ∧ decodeArm 0x1AFFFFFE = .ok (.b .ne 0xFFFFFE)
    ∧ decodeArm 0xE328F20F = .ok (.msrCpsrImm .al 8 2 15)
    ∧ decodeArm 0xEF000012 = .ok (.swi .al 0x12)
    ∧ decodeArm 0xEE000000 = .ok (.cdp .al 0 0)
    ∧ decodeThumb 0x1888 = .ok (.thumbAddReg 2 1 0)
    ∧ decodeThumb 0xC80E = .ok (.thumbLdmia 0 0x0E)

/-- The ARM words that are no instruction are the illegal sub-encodings of R133 items 1 to 4, and no others. -/
def Obligations.IllegalArmWords : Prop :=
  ∀ w : Word,
    (∃ e, decodeArm w = .error e) ↔
      (classifyArm w = .dataProcessing ∧ fieldAt w 23 2 = 2 ∧ w.getLsbD 20 = false)
        ∨ ((classifyArm w = .halfwordReg ∨ classifyArm w = .halfwordImm)
            ∧ (fieldAt w 5 2 = 0 ∨ (w.getLsbD 20 = false ∧ w.getLsbD 6 = true)))
        ∨ (classifyArm w = .halfwordReg ∧ fieldAt w 8 4 ≠ 0)

/-- The THUMB halfwords that classify as Undefined are those of the five ranges R151 gives, and no others. -/
def Obligations.ThumbUndefinedHalfwords : Prop :=
  ∀ h : Half,
    classifyThumb h = .undefined ↔
      (0xB100 ≤ h.toNat ∧ h.toNat ≤ 0xB3FF) ∨ (0xB600 ≤ h.toNat ∧ h.toNat ≤ 0xBBFF)
        ∨ (0xBE00 ≤ h.toNat ∧ h.toNat ≤ 0xBFFF) ∨ (0xDE00 ≤ h.toNat ∧ h.toNat ≤ 0xDEFF)
        ∨ (0xE800 ≤ h.toNat ∧ h.toNat ≤ 0xEFFF)

/-! ## The step -/

/-- Step(state, opcode) (R16) runs the instruction that a supplied opcode decodes to, all 32 bits of it in ARM state and the low 16 in
THUMB state, and adds nothing around it (R175); a word that is no instruction runs as an illegal word (R411). The driver's loop gives
it the opcode at the PC (R95), so a step runs the instruction that the bytes at the PC decode to; a fetch at a byte where bus_ok is
false stops with a fault of its own (log entry 7, the model's choice). -/
def Obligations.StepRunsDecoded : Prop :=
  (∀ (s : State) (opcode : Word) (i : Instr),
    decodeCode (if s.t then .thumb (opcode.extractLsb' 0 16) else .arm opcode) = .ok i → stepOpcode s opcode = exec i s)
  ∧ (∀ (s : State) (opcode : Word) (e : DecodeError),
    s.t = false → decodeArm opcode = .error e → stepOpcode s opcode = illegalWord opcode s)
  ∧ (∀ (s : State) (a b : Word), s.t = true → a.extractLsb' 0 16 = b.extractLsb' 0 16 → stepOpcode s a = stepOpcode s b)
  ∧ (∀ s : State,
    (s.t = false → BusOk s .read (bytesFrom s.pc 4)) →
    step s = stepOpcode s (if s.t then (s.readHalf s.pc).zeroExtend 32 else s.readWord s.pc))
  ∧ (∀ (s : State) (i : Instr),
    (s.t = false → BusOk s .read (bytesFrom s.pc 4)) →
    decodeBytes s.t ((bytesFrom s.pc (if s.t then 2 else 4)).map s.readByte) = .ok (i, []) →
    step s = exec i s)
  ∧ (∀ (s : State) (e : DecodeError),
    s.t = false → BusOk s .read (bytesFrom s.pc 4) → decodeArm (s.readWord s.pc) = .error e →
    step s = illegalWord (s.readWord s.pc) s)
  ∧ (∀ (s : State) (a : Word),
    s.t = false → FirstBad s .read (bytesFrom s.pc 4) a → step s = .fault (.fetchBusError a))

/-- The instruction of an opcode-table row placed by `withFetchWord` is the one the very next step runs, in every state (log entry 7,
the model's choice). -/
def Obligations.PlacedWordRuns : Prop :=
  ∀ (s : State) (nbits w : Nat) (i : Instr),
    s.mem.wf = true → decodeTableWord nbits w = some i →
    step (s.withFetchWord nbits w) = exec i (s.withFetchWord nbits w) ∧ (s.withFetchWord nbits w).pc = s.pc

/-- A word whose condition fails, whatever its family, does nothing but advance the PC, whether a driver supplies it or the
fetch reads it (R173, R174). -/
def Obligations.FailedConditionOnlyAdvances : Prop :=
  ∀ (s : State) (w : Word) (r : Result),
    s.t = false → passes w s.cpsr = false → Answers s w r →
    ∃ t, r = .next t ∧ t.pc = s.pc + 4 ∧ Keeps s t [pcSlot] [] ∧ t.mem = s.mem

/-- The condition table, all 256 entries (R171, R172): bit 15 - NZCV of the row of a code is 1 when the condition passes. The evaluator
reads bits 31 to 28 of the CPSR, and an opcode's condition is its bits 31 to 28 (R170). -/
def Obligations.ConditionTable : Prop :=
  (∀ (c : Cond) (cpsr : Word),
    condPasses c cpsr = condTest c (cpsr.getLsbD 31) (cpsr.getLsbD 30) (cpsr.getLsbD 29) (cpsr.getLsbD 28))
  ∧ (∀ w cpsr : Word, passes w cpsr = condPasses (Cond.ofCode (w.extractLsb' 28 4)) cpsr)
  ∧ ∀ (code : BitVec 4) (n z c v : Bool),
    condTest (Cond.ofCode code) n z c v =
      (([0x0F0F, 0xF0F0, 0x3333, 0xCCCC, 0x00FF, 0xFF00, 0x5555, 0xAAAA, 0x3030, 0xCFCF, 0xAA55, 0x55AA, 0xA050, 0x5FAF, 0xFFFF,
        0x0000] : List (BitVec 16)).getD code.toNat 0).getLsbD
          (15 - (8 * n.toNat + 4 * z.toNat + 2 * c.toNat + v.toNat))

/-- In THUMB state every step is refused, with every opcode a driver may supply, and every instruction is, and each of the 62 THUMB instructions is refused in every state: the
spec gives them no execution (R6 (e), R440). The model's choice (DEDUCED) is to refuse exec of an ARM instruction at T = 1 and of a
THUMB instruction at T = 0 (log entry 13), and to refuse a step even where bus_ok is false at the bytes it would fetch (log entry
18). -/
def Obligations.ThumbExecutionRefused : Prop :=
  (∀ s : State, s.t = true →
    step s = .refused .thumbExecution
      ∧ (∀ opcode : Word, stepOpcode s opcode = .refused .thumbExecution)
      ∧ ∀ i : Instr, exec i s = .refused .thumbExecution)
  ∧ (∀ (i : Instr) (s : State), i.isThumb = true → exec i s = .refused .thumbExecution)

/-! ## Registers and operands -/

/-- Modes, mapping table and reads (R34, R35, R37, R40, R45, R48): the encodings of the seven modes, the slots of the registers and of
the SPSRs in each, the places of the PC, the CPSR and its flags, and what a register reads as. r15 reads the PC under Plain and the PC
plus 8 under Pipelined; a late read (R197, R231, R291) has plus 12 there, and the first operand of data processing (R350) is a late
read for a register-specified shift (R197). -/
def Obligations.RegisterReads : Prop :=
  (∀ b : BitVec 5,
    Mode.ofBits b =
      match b.toNat with
      | 0x10 => some .user
      | 0x11 => some .fiq
      | 0x12 => some .irq
      | 0x13 => some .supervisor
      | 0x17 => some .abort
      | 0x1B => some .undefined
      | 0x1F => some .system
      | _ => none)
  ∧ (∀ m : Mode, Mode.ofBits m.bits = some m)
  ∧ (∀ (m : Mode) (i : Reg),
    (mapReg m i).val =
      if i.val < 8 then i.val
      else if i.val < 13 then (if m = .fiq then i.val + 5 else i.val)
      else if i.val = 15 then 30
      else
        i.val + (match m with
          | .user | .system => 5
          | .fiq => 7
          | .irq => 9
          | .supervisor => 11
          | .abort => 13
          | .undefined => 15))
  ∧ (∀ m : Mode,
    spsrSlot m =
      match m with
      | .fiq => some 32
      | .irq => some 33
      | .supervisor => some 34
      | .abort => some 35
      | .undefined => some 36
      | .user | .system => none)
  ∧ ∀ (s : State) (i : Reg),
    let pcPlus := fun n : Word => if s.pcReadModel = .plain then s.slot 30 else s.slot 30 + n
    s.pc = s.slot 30 ∧ s.cpsr = s.slot 31 ∧ s.curSpsr = (spsrSlot s.mode).map s.slot
      ∧ s.n = (s.slot 31).getLsbD 31 ∧ s.z = (s.slot 31).getLsbD 30 ∧ s.c = (s.slot 31).getLsbD 29
      ∧ s.v = (s.slot 31).getLsbD 28 ∧ s.t = (s.slot 31).getLsbD 5
      ∧ s.reg i = (if i = 15 then pcPlus 8 else s.slot (mapReg s.mode i))
      ∧ s.regLate i = (if i = 15 then pcPlus 12 else s.slot (mapReg s.mode i))
      ∧ ∀ op : ShifterOperand,
        firstOperand op i s =
          if i = 15 then
            (match op with
             | .regShift .. => pcPlus 12
             | .imm .. | .immShift .. => pcPlus 8)
          else s.slot (mapReg s.mode i)

/-- The immediate operand is the 8-bit value rotated right by twice the rotate field; its carry-out is C for no rotation, else bit 31
of the value (R191). -/
def Obligations.ShifterImmediate : Prop :=
  ∀ (rot : BitVec 4) (imm8 : BitVec 8) (s : State),
    (∀ i, i < 32 →
      (shiftOperand (.imm rot imm8) s).value.getLsbD i = imm8.getLsbD ((i + 2 * rot.toNat) % 32))
    ∧ (shiftOperand (.imm rot imm8) s).carry =
        (if rot = 0 then s.c else (shiftOperand (.imm rot imm8) s).value.getLsbD 31)

/-- A register shifted by an immediate (R192 to R196, R202): LSR #0 and ASR #0 shift by 32, ROR #0 is RRX, and the carry-out is the
last bit shifted out, or C where nothing is shifted. -/
def Obligations.ShifterByImmediate : Prop :=
  ∀ (k : BitVec 5) (rm : Reg) (s : State),
    let m := s.reg rm
    let n := if k = 0 then 32 else k.toNat
    let out := fun ty => shiftOperand (.immShift k ty rm) s
    ((out .lsl).value.toNat = m.toNat * 2 ^ k.toNat % 2 ^ 32
      ∧ (out .lsl).carry = (if k = 0 then s.c else (m.toNat * 2 ^ k.toNat).testBit 32))
    ∧ ((out .lsr).value.toNat = m.toNat / 2 ^ n ∧ (out .lsr).carry = m.getLsbD (n - 1))
    ∧ ((out .asr).value.toInt = m.toInt / 2 ^ n ∧ (out .asr).carry = m.getLsbD (n - 1))
    ∧ (k ≠ 0 → (∀ i, i < 32 → (out .ror).value.getLsbD i = m.getLsbD ((i + k.toNat) % 32))
        ∧ (out .ror).carry = m.getLsbD (k.toNat - 1))
    ∧ (k = 0 → (∀ i, i < 31 → (out .ror).value.getLsbD i = m.getLsbD (i + 1))
        ∧ (out .ror).value.getLsbD 31 = s.c ∧ (out .ror).carry = m.getLsbD 0)

/-- A register shifted by the low byte of another (R197 to R201), amounts of 32 and above included: amount 0 touches neither the
value nor the carry. -/
def Obligations.ShifterByRegister : Prop :=
  ∀ (rs rm : Reg) (s : State),
    let m := s.regLate rm
    let n := (s.reg rs).toNat % 256
    let out := fun ty => shiftOperand (.regShift rs ty rm) s
    (n = 0 → ∀ ty, out ty = { value := m, carry := s.c })
    ∧ (n ≠ 0 →
      ((out .lsl).value.toNat = m.toNat * 2 ^ n % 2 ^ 32 ∧ (out .lsl).carry = (m.toNat * 2 ^ n).testBit 32)
      ∧ ((out .lsr).value.toNat = m.toNat / 2 ^ n ∧ (out .lsr).carry = m.getLsbD (n - 1))
      ∧ ((out .asr).value.toInt = m.toInt / 2 ^ n ∧ (out .asr).carry = m.getLsbD (min n 32 - 1))
      ∧ ((∀ i, i < 32 → (out .ror).value.getLsbD i = m.getLsbD ((i + n) % 32))
        ∧ (out .ror).carry = (out .ror).value.getLsbD 31))

/-! ## Data processing -/

/-- AND, EOR, ORR, MOV, BIC, MVN to r0..r14 complete: the result, the flags when S = 1 with C the shifter's carry-out and V kept, the
PC advance, and nothing else (R351, R353, R356, R357, R368 to R371). -/
def Obligations.LogicalResults : Prop :=
  ∀ row ∈ logicalRows, ∀ (cond : Cond) (sf : Bool) (rn rd : Reg) (op : ShifterOperand) (s : State),
    Executes cond s → rsIsPc op = false → rd ≠ 15 →
    let res := row.value (firstOperand op rn s) (shiftOperand op s).value s.c
    ∃ t, exec (row.make cond sf rn rd op) s = .next t ∧ t.reg rd = res ∧ t.pc = s.pc + 4
      ∧ (sf = true → FlagsAre t (res.getLsbD 31) (decide (res = 0)) (shiftOperand op s).carry s.v ∧ SamePsrRest s t)
      ∧ Keeps s t (pcSlot :: mapReg s.mode rd :: if sf then [cpsrSlot] else []) [] ∧ t.mem = s.mem

/-- SUB, RSB, ADD, ADC, SBC, RSC to r0..r14 complete: the exact integer result modulo 2^32, C the carry or "no borrow", V the signed
overflow, the PC advance, and nothing else (R351 to R353, R358 to R363). -/
def Obligations.ArithmeticResults : Prop :=
  ∀ row ∈ arithmeticRows, ∀ (cond : Cond) (sf : Bool) (rn rd : Reg) (op : ShifterOperand) (s : State),
    Executes cond s → rsIsPc op = false → rd ≠ 15 →
    let a := firstOperand op rn s
    let b := (shiftOperand op s).value
    let res := row.value a b s.c
    ∃ t, exec (row.make cond sf rn rd op) s = .next t ∧ t.reg rd = res ∧ t.pc = s.pc + 4
      ∧ (sf = true →
          FlagsAre t (res.getLsbD 31) (decide (res = 0)) (row.carry a b s.c (shiftOperand op s).carry) (row.overflow a b s.c s.v)
            ∧ SamePsrRest s t)
      ∧ Keeps s t (pcSlot :: mapReg s.mode rd :: if sf then [cpsrSlot] else []) [] ∧ t.mem = s.mem

/-- TST, TEQ, CMP, CMN complete: the flags of their result, the PC advance, and nothing else (R351, R352, R364 to R367). -/
def Obligations.TestResults : Prop :=
  ∀ row ∈ testRows, ∀ (cond : Cond) (rn sbzRd : Reg) (op : ShifterOperand) (s : State),
    Executes cond s → rsIsPc op = false → sbzRd ≠ 15 →
    let a := firstOperand op rn s
    let b := (shiftOperand op s).value
    let res := row.value a b s.c
    ∃ t, exec (row.make cond rn sbzRd op) s = .next t ∧ t.pc = s.pc + 4
      ∧ FlagsAre t (res.getLsbD 31) (decide (res = 0)) (row.carry a b s.c (shiftOperand op s).carry) (row.overflow a b s.c s.v)
      ∧ SamePsrRest s t ∧ Keeps s t [pcSlot, cpsrSlot] [] ∧ t.mem = s.mem

/-- The twelve opcodes with a result, S = 0 and Rd = 15: a PC write of the result, no flag and no other register; a result that is
not word-aligned is Unpredictable (R42, R353). -/
def Obligations.DataToPc : Prop :=
  ∀ row ∈ logicalRows ++ arithmeticRows, ∀ (cond : Cond) (rn : Reg) (op : ShifterOperand) (s : State),
    Executes cond s → rsIsPc op = false →
    let res := row.value (firstOperand op rn s) (shiftOperand op s).value s.c
    (Aligned res →
      ∃ t, exec (row.make cond false rn 15 op) s = .next t ∧ t.pc = res ∧ Keeps s t [pcSlot] [] ∧ t.mem = s.mem)
    ∧ (¬ Aligned res → exec (row.make cond false rn 15 op) s = .fault (.unpredictable .misalignedPcWrite))

/-- The twelve opcodes with a result, S = 1 and Rd = 15, the exception return (R353, R372, R465): the whole CPSR from the current
SPSR with its mode's mapping, the PC from the result, no flag from the result; in User and System mode, for a saved mode that is
none, and for a result misaligned under the restored T bit, the named stop. -/
def Obligations.DataExceptionReturn : Prop :=
  ∀ row ∈ logicalRows ++ arithmeticRows, ∀ (cond : Cond) (rn : Reg) (op : ShifterOperand) (s : State),
    Executes cond s → rsIsPc op = false →
    let i := row.make cond true rn 15 op
    let res := row.value (firstOperand op rn s) (shiftOperand op s).value s.c
    (NoSpsr s → exec i s = .fault (.invalidModeAccess .read))
    ∧ ∀ saved, s.curSpsr = some saved →
      (Mode.ofBits (fieldAt saved 0 5) = none → exec i s = .fault (.unpredictable .invalidMode))
      ∧ ∀ m, Mode.ofBits (fieldAt saved 0 5) = some m →
        (res.getLsbD 0 = false ∧ (saved.getLsbD 5 = false → res.getLsbD 1 = false) →
          ∃ t, exec i s = .next t ∧ t.cpsr = saved &&& psrMask ∧ t.mode = m ∧ t.pc = res
            ∧ Frame s t [pcSlot, cpsrSlot] [] ∧ t.mem = s.mem)
        ∧ (¬ (res.getLsbD 0 = false ∧ (saved.getLsbD 5 = false → res.getLsbD 1 = false)) →
          exec i s = .fault (.unpredictable .misalignedPcWrite))

/-- The operand checks of data processing: a register-specified shift with Rs = 15 (R197), and a test opcode with Rd = 15 (R354). -/
def Obligations.DataProcessingStops : Prop :=
  (∀ row ∈ logicalRows ++ arithmeticRows, ∀ (cond : Cond) (sf : Bool) (rn rd : Reg) (op : ShifterOperand) (s : State),
    Executes cond s → rsIsPc op = true → exec (row.make cond sf rn rd op) s = .fault (.unpredictable .rsIsPc))
  ∧ (∀ row ∈ testRows, ∀ (cond : Cond) (rn sbzRd : Reg) (op : ShifterOperand) (s : State),
    Executes cond s →
    (sbzRd = 15 → rsIsPc op = false → exec (row.make cond rn sbzRd op) s = .fault (.unpredictable .testRdIsPc))
    ∧ (sbzRd ≠ 15 → rsIsPc op = true → exec (row.make cond rn sbzRd op) s = .fault (.unpredictable .rsIsPc))
    ∧ (sbzRd = 15 → rsIsPc op = true →
        ∃ r, exec (row.make cond rn sbzRd op) s = .fault (.unpredictable r) ∧ (r = .testRdIsPc ∨ r = .rsIsPc)))

/-! ## Multiplies -/

/-- MUL and MLA complete: the product, with MLA's addend, modulo 2^32; N and Z when S = 1, V kept, C kept under MULS_C_POLICY =
Unchanged and unconstrained under Draw; nothing else (R330 to R332). -/
def Obligations.MultiplyResults : Prop :=
  ∀ (cond : Cond) (sf : Bool) (rd rn rs rm : Reg) (s : State),
    Executes cond s → rd ≠ 15 → rm ≠ 15 → rs ≠ 15 → rd ≠ rm →
    ∀ p : Instr × Word,
      (p = (.mul cond sf rd rn rs rm, s.reg rm * s.reg rs)
        ∨ (rn ≠ 15 ∧ p = (.mla cond sf rd rn rs rm, s.reg rm * s.reg rs + s.reg rn))) →
      ∃ t, exec p.1 s = .next t ∧ t.reg rd = p.2 ∧ t.pc = s.pc + 4
        ∧ (sf = true → t.n = p.2.getLsbD 31 ∧ t.z = decide (p.2 = 0) ∧ (s.mulsCPolicy = .unchanged → t.c = s.c) ∧ t.v = s.v
            ∧ SamePsrRest s t)
        ∧ Keeps s t (pcSlot :: mapReg s.mode rd :: if sf then [cpsrSlot] else []) [] ∧ t.mem = s.mem

/-- UMULL, UMLAL, SMULL, SMLAL complete: the exact 64-bit result in RdHi and RdLo, N and Z of all 64 bits when S = 1, C and V kept
under MULS_C_POLICY = Unchanged and unconstrained under Draw; nothing else (R331, R333 to R337). -/
def Obligations.LongMultiplyResults : Prop :=
  ∀ row ∈ longMultiplyRows, ∀ (cond : Cond) (sf : Bool) (rdHi rdLo rs rm : Reg) (s : State),
    Executes cond s → rdHi ≠ 15 → rdLo ≠ 15 → rm ≠ 15 → rs ≠ 15 → rdHi ≠ rdLo → rdHi ≠ rm → rdLo ≠ rm →
    let r := row.2 (s.reg rm) (s.reg rs) (s.reg rdHi) (s.reg rdLo)
    ∃ t, exec (row.1 cond sf rdHi rdLo rs rm) s = .next t
      ∧ t.reg rdLo = fieldAt r 0 32 ∧ t.reg rdHi = fieldAt r 32 32 ∧ t.pc = s.pc + 4
      ∧ (sf = true → t.n = r.getLsbD 63 ∧ t.z = decide (r = 0) ∧ (s.mulsCPolicy = .unchanged → t.c = s.c ∧ t.v = s.v)
          ∧ SamePsrRest s t)
      ∧ Keeps s t (pcSlot :: mapReg s.mode rdLo :: mapReg s.mode rdHi :: if sf then [cpsrSlot] else []) [] ∧ t.mem = s.mem

/-- The operand checks of the multiplies (R330, R332, R333). That a long multiply names the r15 operand where an overlap applies too is
the model's choice (DEDUCED, log entry 10). -/
def Obligations.MultiplyStops : Prop :=
  (∀ (cond : Cond) (sf : Bool) (rd rn rs rm : Reg) (s : State), Executes cond s →
    ((rd = 15 ∨ rm = 15 ∨ rs = 15) → exec (.mul cond sf rd rn rs rm) s = .fault (.unpredictable .mulPcOperand))
    ∧ (¬ (rd = 15 ∨ rm = 15 ∨ rs = 15) → rd = rm → exec (.mul cond sf rd rn rs rm) s = .fault (.unpredictable .mulRdIsRm))
    ∧ ((rd = 15 ∨ rm = 15 ∨ rs = 15 ∨ rn = 15) →
        exec (.mla cond sf rd rn rs rm) s = .fault (.unpredictable .mlaPcOperand))
    ∧ (¬ (rd = 15 ∨ rm = 15 ∨ rs = 15 ∨ rn = 15) → rd = rm →
        exec (.mla cond sf rd rn rs rm) s = .fault (.unpredictable .mlaRdIsRm)))
  ∧ (∀ row ∈ longMultiplyRows, ∀ (cond : Cond) (sf : Bool) (rdHi rdLo rs rm : Reg) (s : State), Executes cond s →
    ((rdHi = 15 ∨ rdLo = 15 ∨ rm = 15 ∨ rs = 15) →
      exec (row.1 cond sf rdHi rdLo rs rm) s = .fault (.unpredictable .longMulPcOperand))
    ∧ (¬ (rdHi = 15 ∨ rdLo = 15 ∨ rm = 15 ∨ rs = 15) → (rdHi = rdLo ∨ rdHi = rm ∨ rdLo = rm) →
      exec (row.1 cond sf rdHi rdLo rs rm) s = .fault (.unpredictable .longMulOverlap)))

/-! ## Single transfers and swap -/

/-- The indexing forms (R221, R225): the address is Rn moved by the offset, or Rn itself when post-indexed, and every form but the
plain offset writes the moved base back. -/
def Obligations.AddressForms : Prop :=
  ∀ (idx : Index) (up : Bool) (base offset : Word),
    let new := if up = true then base + offset else base - offset
    effAddr idx up base offset =
      { addr := if idx = .post ∨ idx = .postW then base else new, wb := if idx = .offset then none else some new }

/-- LDR, LDRB, LDRT, LDRBT in every indexing form, to r0..r14, complete: the word rotated by the address's low bits, or the byte
zero-extended; the base written back where the form says so; the PC advance; no flag, no memory, nothing else (R87, R221 to R226,
R230, R232, R234). -/
def Obligations.LoadResults : Prop :=
  ∀ row ∈ loadRows, ∀ (cond : Cond) (up : Bool) (rn rd : Reg) (off : Offset2) (s : State),
    Executes cond s → off.usable = true → (row.idx.writesBack = true → rn ≠ 15 ∧ rn ≠ rd) → rd ≠ 15 →
    let a := address row.idx up (s.reg rn) (off.value s)
    BusOk s .read (row.bytes a) →
    ∃ t, exec (row.make cond up rn rd off) s = .next t
      ∧ t.reg rd = (if row.byte then (s.readByte a).zeroExtend 32 else (s.readWord (align4 a)).rotateRight (8 * (a.toNat % 4)))
      ∧ (row.idx.writesBack = true → t.reg rn = moved up (s.reg rn) (off.value s))
      ∧ t.pc = s.pc + 4
      ∧ Keeps s t (pcSlot :: mapReg s.mode rd :: baseSlot s.mode row.idx.writesBack rn) [] ∧ t.mem = s.mem

/-- LDR and LDRT to r15: the loaded word is a PC write, a branch to it when it is word-aligned and Unpredictable when it is not
(R42, R230, R234). -/
def Obligations.LoadToPc : Prop :=
  ∀ row ∈ loadRows, row.byte = false → ∀ (cond : Cond) (up : Bool) (rn : Reg) (off : Offset2) (s : State),
    Executes cond s → off.usable = true → (row.idx.writesBack = true → rn ≠ 15) →
    let a := address row.idx up (s.reg rn) (off.value s)
    let v := (s.readWord (align4 a)).rotateRight (8 * (a.toNat % 4))
    BusOk s .read (row.bytes a) →
    (Aligned v →
      ∃ t, exec (row.make cond up rn 15 off) s = .next t ∧ t.pc = v
        ∧ (row.idx.writesBack = true → t.reg rn = moved up (s.reg rn) (off.value s))
        ∧ Keeps s t (pcSlot :: baseSlot s.mode row.idx.writesBack rn) [] ∧ t.mem = s.mem)
    ∧ (¬ Aligned v → exec (row.make cond up rn 15 off) s = .fault (.unpredictable .misalignedPcWrite))

/-- STR, STRB, STRT, STRBT in every indexing form complete: the word of Rd, or the PC under Plain and the PC plus 12 under Pipelined
for r15, at the word-aligned address, or the low byte of Rd at the address; every other byte kept; the base written back; the PC advance; no flag, nothing else (R88, R221 to R226, R231, R233, R235). -/
def Obligations.StoreResults : Prop :=
  ∀ row ∈ storeRows, ∀ (cond : Cond) (up : Bool) (rn rd : Reg) (off : Offset2) (s : State),
    Executes cond s → off.usable = true → (row.idx.writesBack = true → rn ≠ 15) → (row.byte = true → rd ≠ 15) →
    s.mem.wf = true →
    let a := address row.idx up (s.reg rn) (off.value s)
    BusOk s .write (row.bytes a) →
    ∃ t, exec (row.make cond up rn rd off) s = .next t
      ∧ (if row.byte then t.readByte a = fieldAt (s.reg rd) 0 8
         else
          t.readWord (align4 a) =
            if rd = 15 then (if s.pcReadModel = .plain then s.pc else s.pc + 12) else s.reg rd)
      ∧ (row.idx.writesBack = true → t.reg rn = moved up (s.reg rn) (off.value s))
      ∧ t.pc = s.pc + 4
      ∧ Keeps s t (pcSlot :: baseSlot s.mode row.idx.writesBack rn) (row.bytes a)

/-- LDRH, LDRSB, LDRSH in every indexing form complete: the extended halfword or byte, the base written back, the PC advance, nothing
else (R225 to R228, R236, R238, R239). -/
def Obligations.HalfwordLoadResults : Prop :=
  ∀ row ∈ halfLoadRows, ∀ (cond : Cond) (idx : Index) (up : Bool) (rn rd : Reg) (off : Offset3) (s : State),
    Executes cond s → idx ≠ .postW → off.usable = true → (idx.writesBack = true → rn ≠ 15 ∧ rn ≠ rd) → rd ≠ 15 →
    let a := address idx up (s.reg rn) (off.value s)
    (row.half = true → a.getLsbD 0 = false) → BusOk s .read (row.bytes a) →
    ∃ t, exec (row.make cond idx up rn rd off) s = .next t ∧ t.reg rd = row.value s a
      ∧ (idx.writesBack = true → t.reg rn = moved up (s.reg rn) (off.value s))
      ∧ t.pc = s.pc + 4
      ∧ Keeps s t (pcSlot :: mapReg s.mode rd :: baseSlot s.mode idx.writesBack rn) [] ∧ t.mem = s.mem

/-- STRH in every indexing form completes: the low halfword of Rd at the address, every other byte kept, the base written back, the PC
advance, nothing else (R225 to R228, R237). -/
def Obligations.HalfwordStoreResults : Prop :=
  ∀ (cond : Cond) (idx : Index) (up : Bool) (rn rd : Reg) (off : Offset3) (s : State),
    Executes cond s → idx ≠ .postW → off.usable = true → (idx.writesBack = true → rn ≠ 15) → rd ≠ 15 → s.mem.wf = true →
    let a := address idx up (s.reg rn) (off.value s)
    a.getLsbD 0 = false → BusOk s .write (halfBytes a) →
    ∃ t, exec (.strh cond idx up rn rd off) s = .next t ∧ t.readHalf a = fieldAt (s.reg rd) 0 16
      ∧ (idx.writesBack = true → t.reg rn = moved up (s.reg rn) (off.value s))
      ∧ t.pc = s.pc + 4
      ∧ Keeps s t (pcSlot :: baseSlot s.mode idx.writesBack rn) (halfBytes a)

/-- SWP and SWPB complete: the old word, rotated, or the old byte in Rd, the value of Rm in memory, every other byte kept, the PC
advance, nothing else; Rd = Rm exchanges (R241). -/
def Obligations.SwapResults : Prop :=
  ∀ (cond : Cond) (rn rd rm : Reg) (s : State),
    Executes cond s → rn ≠ 15 → rd ≠ 15 → rm ≠ 15 → rn ≠ rd → rn ≠ rm → s.mem.wf = true →
    let a := s.reg rn
    (BusOk s .read (wordBytes a) → BusOk s .write (wordBytes a) →
      ∃ t, exec (.swp cond rn rd rm) s = .next t
        ∧ t.reg rd = (s.readWord (align4 a)).rotateRight (8 * (a.toNat % 4)) ∧ t.readWord (align4 a) = s.reg rm
        ∧ t.pc = s.pc + 4 ∧ Keeps s t [pcSlot, mapReg s.mode rd] (wordBytes a))
    ∧ (BusOk s .read (byteBytes a) → BusOk s .write (byteBytes a) →
      ∃ t, exec (.swpb cond rn rd rm) s = .next t
        ∧ t.reg rd = (s.readByte a).zeroExtend 32 ∧ t.readByte a = fieldAt (s.reg rm) 0 8
        ∧ t.pc = s.pc + 4 ∧ Keeps s t [pcSlot, mapReg s.mode rd] (byteBytes a))

/-- The checks of mode 2 and of its instructions (R224, R225, R232, R233, R242). That Rm = 15 is named before writeback to r15 where both
apply is the model's choice (DEDUCED, log entry 10). -/
def Obligations.TransferStops : Prop :=
  (∀ row ∈ loadRows ++ storeRows, ∀ (cond : Cond) (up : Bool) (rn rd : Reg) (off : Offset2) (s : State), Executes cond s →
    (off.usable = false → exec (row.make cond up rn rd off) s = .fault (.unpredictable .rmIsPc))
    ∧ (off.usable = true → row.idx.writesBack = true → rn = 15 →
        exec (row.make cond up rn rd off) s = .fault (.unpredictable .writebackToPc)))
  ∧ (∀ row ∈ loadRows, ∀ (cond : Cond) (up : Bool) (rn rd : Reg) (off : Offset2) (s : State), Executes cond s →
    off.usable = true →
    (row.idx.writesBack = true → rn ≠ 15 → rn = rd →
        exec (row.make cond up rn rd off) s = .fault (.unpredictable .baseIsDestination))
    ∧ (row.byte = true → (row.idx.writesBack = true → rn ≠ 15) → rd = 15 →
        exec (row.make cond up rn rd off) s = .fault (.unpredictable .ldrbToPc)))
  ∧ (∀ row ∈ storeRows, ∀ (cond : Cond) (up : Bool) (rn rd : Reg) (off : Offset2) (s : State), Executes cond s →
    off.usable = true → row.byte = true → (row.idx.writesBack = true → rn ≠ 15) → rd = 15 →
      exec (row.make cond up rn rd off) s = .fault (.unpredictable .strbOfPc))

/-- The checks of mode 3 and of its instructions (R89, R225, R228, R229, R236 to R239, R242). Where two apply at once, that Rm = 15, then
P = 0 with W = 1, is named before writeback to r15, and a base that is the destination before an odd address, is the model's choice
(DEDUCED, log entry 10). -/
def Obligations.HalfwordStops : Prop :=
  ∀ row ∈ (⟨.strh, true, false, .strhOfPc⟩ : HalfRow) :: halfLoadRows,
    ∀ (cond : Cond) (idx : Index) (up : Bool) (rn rd : Reg) (off : Offset3) (s : State), Executes cond s →
    let i := row.make cond idx up rn rd off
    let a := address idx up (s.reg rn) (off.value s)
    (idx ≠ .postW → off.usable = false → exec i s = .fault (.unpredictable .rmIsPc))
    ∧ (idx = .postW → off.usable = true → exec i s = .fault (.unpredictable .mode3PostIndexedW))
    ∧ (idx = .postW → off.usable = false →
        ∃ r, exec i s = .fault (.unpredictable r) ∧ (r = .rmIsPc ∨ r = .mode3PostIndexedW))
    ∧ (idx ≠ .postW → off.usable = true →
      (idx.writesBack = true → rn = 15 → exec i s = .fault (.unpredictable .writebackToPc))
      ∧ (idx.writesBack = true → rn ≠ 15 → rn = rd → row.rdPc ≠ .strhOfPc →
          exec i s = .fault (.unpredictable .baseIsDestination))
      ∧ ((idx.writesBack = true → rn ≠ 15) → rd = 15 → exec i s = .fault (.unpredictable row.rdPc))
      ∧ ((idx.writesBack = true → rn ≠ 15 ∧ (rn ≠ rd ∨ row.rdPc = .strhOfPc)) → rd ≠ 15 → row.half = true →
          a.getLsbD 0 = true → exec i s = .fault (.unpredictable .misalignedHalfword)))

/-- The operand checks of the swaps (R241). -/
def Obligations.SwapStops : Prop :=
  ∀ i ∈ [Instr.swp, Instr.swpb], ∀ (cond : Cond) (rn rd rm : Reg) (s : State), Executes cond s →
    ((rn = 15 ∨ rd = 15 ∨ rm = 15) → exec (i cond rn rd rm) s = .fault (.unpredictable .swpPcOperand))
    ∧ (¬ (rn = 15 ∨ rd = 15 ∨ rm = 15) → (rn = rd ∨ rn = rm) →
        exec (i cond rn rd rm) s = .fault (.unpredictable .swpBaseOverlap))

/-- Byte order and alignment (R14, R83, R86 to R90): Align4, the bytes of each access, byte `i` of a word or a halfword at its address
plus `i`, and for a word load at any address byte `i` of the value at `(address + i) mod 4` of the aligned word, so that the addressed
byte lands in bits 7:0 (R87). -/
def Obligations.WordLoadRotates : Prop :=
  ∀ (s : State) (a : Word),
    let w := a &&& 0xFFFFFFFC
    align4 a = w ∧ wordBytes a = [w, w + 1, w + 2, w + 3] ∧ halfBytes a = [a, a + 1] ∧ byteBytes a = [a]
      ∧ (∀ i, i < 4 → fieldAt (s.readWord a) (8 * i) 8 = s.readByte (a + BitVec.ofNat 32 i))
      ∧ (∀ i, i < 2 → fieldAt (s.readHalf a) (8 * i) 8 = s.readByte (a + BitVec.ofNat 32 i))
      ∧ (∀ i, i < 4 → fieldAt (s.loadRotated a) (8 * i) 8 = s.readByte (w + BitVec.ofNat 32 ((a.toNat + i) % 4)))

/-! ## Block transfers -/

/-- The start, the end and the writeback value of each form of a list of k registers (R280, R281), and the registers of the list in
increasing number from the start address, four bytes apart, the last at the end address (R283), and the bytes accessed, in order. -/
def Obligations.BlockRange : Prop :=
  ∀ (form : BlockForm) (b : Word) (list : BitVec 16),
    let k4 := BitVec.ofNat 32 (4 * (List.range 16).countP (fun i => list.getLsbD i))
    (blockStart form b list, blockEnd form b list, blockWb form b list) =
      (match form with
       | .ia => (b, b + k4 - 4, b + k4)
       | .ib => (b + 4, b + k4, b + k4)
       | .da => (b - k4 + 4, b, b - k4)
       | .db => (b - k4, b - 4, b - k4))
    ∧ transfers form b list = (regsOf list).map (fun r => (r, wordAddress form b list r))
    ∧ blockBytes form b list = (regsOf list).flatMap (fun r => wordBytes (wordAddress form b list r))
    ∧ regsOf list = (List.finRange 16).filter (fun r => list.getLsbD r.val)
    ∧ (∀ r, r ∈ regsOf list ↔ list.getLsbD r.val = true)
    ∧ (∀ r, (∀ q, list.getLsbD q.val = true → q ≤ r) → list.getLsbD r.val = true →
        wordAddress form b list r = align4 (blockEnd form b list))

/-- LDMIA, LDMIB, LDMDA, LDMDB without r15 complete: each register of the list from its address, the base written back when W = 1, the
PC advance, nothing else; with W = 0 the base may be in the list (R280 to R284, R286). -/
def Obligations.LdmResults : Prop :=
  ∀ row ∈ ldmRows, ∀ (cond : Cond) (wb : Bool) (rn : Reg) (list : BitVec 16) (s : State),
    Executes cond s → list ≠ 0 → rn ≠ 15 → list.getLsbD 15 = false → (wb = true → list.getLsbD rn.val = false) →
    BusOk s .read (blockBytes row.1 (s.reg rn) list) →
    ∃ t, exec (row.2 cond wb rn list) s = .next t
      ∧ (∀ r : Reg, list.getLsbD r.val = true → t.reg r = s.readWord (wordAddress row.1 (s.reg rn) list r))
      ∧ (wb = true → t.reg rn = blockWb row.1 (s.reg rn) list)
      ∧ t.pc = s.pc + 4
      ∧ Keeps s t (pcSlot :: (bankSlots s.mode list ++ baseSlot s.mode wb rn)) [] ∧ t.mem = s.mem

/-- LDM with r15 in the list and S = 0: the registers and the base as without it, and a PC write of the last word, Unpredictable when
it is not word-aligned (R42, R286). -/
def Obligations.LdmToPc : Prop :=
  ∀ row ∈ ldmRows, ∀ (cond : Cond) (wb : Bool) (rn : Reg) (list : BitVec 16) (s : State),
    Executes cond s → rn ≠ 15 → list.getLsbD 15 = true → (wb = true → list.getLsbD rn.val = false) →
    BusOk s .read (blockBytes row.1 (s.reg rn) list) →
    let v := s.readWord (wordAddress row.1 (s.reg rn) list 15)
    (Aligned v →
      ∃ t, exec (row.2 cond wb rn list) s = .next t ∧ t.pc = v
        ∧ (∀ r : Reg, r ≠ 15 → list.getLsbD r.val = true → t.reg r = s.readWord (wordAddress row.1 (s.reg rn) list r))
        ∧ (wb = true → t.reg rn = blockWb row.1 (s.reg rn) list)
        ∧ Keeps s t (pcSlot :: (bankSlots s.mode list ++ baseSlot s.mode wb rn)) [] ∧ t.mem = s.mem)
    ∧ (¬ Aligned v → exec (row.2 cond wb rn list) s = .fault (.unpredictable .misalignedPcWrite))

/-- STMIA, STMIB, STMDA, STMDB complete: each register of the list, read before the writeback and r15 with its stored value, at its
address, every other byte kept, the base written back when W = 1, the PC advance, nothing else (R280 to R284, R287, R291). -/
def Obligations.StmResults : Prop :=
  ∀ row ∈ stmRows, ∀ (cond : Cond) (wb : Bool) (rn : Reg) (list : BitVec 16) (s : State),
    Executes cond s → list ≠ 0 → rn ≠ 15 →
    ¬ (wb = true ∧ list.getLsbD rn.val = true ∧ ∃ q : Reg, q < rn ∧ list.getLsbD q.val = true) →
    s.mem.wf = true → BusOk s .write (blockBytes row.1 (s.reg rn) list) →
    ∃ t, exec (row.2 cond wb rn list) s = .next t
      ∧ (∀ r : Reg, list.getLsbD r.val = true →
          t.readWord (wordAddress row.1 (s.reg rn) list r) =
            if r = 15 then (if s.pcReadModel = .plain then s.pc else s.pc + 12) else s.reg r)
      ∧ (wb = true → t.reg rn = blockWb row.1 (s.reg rn) list)
      ∧ t.pc = s.pc + 4
      ∧ Keeps s t (pcSlot :: baseSlot s.mode wb rn) (blockBytes row.1 (s.reg rn) list)

/-- LDM with S = 1 and r15 in the list, the exception return (R290, R372): the registers in the bank of the mode before, the CPSR from
the SPSR with its mode's mapping, the PC checked against the restored T bit; in User and System mode, for a saved mode that is none,
and for a misaligned PC, the named stop. -/
def Obligations.LdmExceptionReturn : Prop :=
  ∀ (cond : Cond) (form : BlockForm) (wb : Bool) (rn : Reg) (list : BitVec 16) (s : State),
    Executes cond s → rn ≠ 15 → list.getLsbD 15 = true → (wb = true → list.getLsbD rn.val = false) →
    let i := Instr.ldmReturn cond form wb rn list
    let v := s.readWord (wordAddress form (s.reg rn) list 15)
    (NoSpsr s → exec i s = .fault (.invalidModeAccess .read))
    ∧ ∀ saved, s.curSpsr = some saved → BusOk s .read (blockBytes form (s.reg rn) list) →
      (Mode.ofBits (fieldAt saved 0 5) = none → exec i s = .fault (.unpredictable .invalidMode))
      ∧ ∀ m, Mode.ofBits (fieldAt saved 0 5) = some m →
        (v.getLsbD 0 = false ∧ (saved.getLsbD 5 = false → v.getLsbD 1 = false) →
          ∃ t, exec i s = .next t ∧ t.cpsr = saved &&& psrMask ∧ t.mode = m ∧ t.pc = v
            ∧ (∀ r : Reg, r ≠ 15 → list.getLsbD r.val = true →
                t.slot (mapReg s.mode r) = s.readWord (wordAddress form (s.reg rn) list r))
            ∧ (wb = true → t.slot (mapReg s.mode rn) = blockWb form (s.reg rn) list)
            ∧ Frame s t (pcSlot :: cpsrSlot :: (bankSlots s.mode list ++ baseSlot s.mode wb rn)) [] ∧ t.mem = s.mem)
        ∧ (¬ (v.getLsbD 0 = false ∧ (saved.getLsbD 5 = false → v.getLsbD 1 = false)) →
          exec i s = .fault (.unpredictable .misalignedPcWrite))

/-- The user-bank LDM and STM complete in a mode with a bank of its own: the list's registers are loaded into, or stored from, the User
bank, every other register unchanged and no writeback, the PC advance, nothing else (R39, R292, R293). That the
user-bank STM stores the PC plus 12 for r15 under Pipelined is the model's choice (DEDUCED, log entry 17). -/
def Obligations.UserBankResults : Prop :=
  ∀ (cond : Cond) (form : BlockForm) (rn : Reg) (list : BitVec 16) (s : State),
    Executes cond s → ¬ NoSpsr s → list ≠ 0 → rn ≠ 15 →
    (list.getLsbD 15 = false → BusOk s .read (blockBytes form (s.reg rn) list) →
      ∃ t, exec (.ldmUser cond form false rn list) s = .next t
        ∧ (∀ r : Reg, list.getLsbD r.val = true →
            t.slot (mapReg .user r) = s.readWord (wordAddress form (s.reg rn) list r))
        ∧ t.pc = s.pc + 4 ∧ Keeps s t (pcSlot :: bankSlots .user list) [] ∧ t.mem = s.mem)
    ∧ (s.mem.wf = true → BusOk s .write (blockBytes form (s.reg rn) list) →
      ∃ t, exec (.stmUser cond form false rn list) s = .next t
        ∧ (∀ r : Reg, list.getLsbD r.val = true →
            t.readWord (wordAddress form (s.reg rn) list r) =
              if r = 15 then (if s.pcReadModel = .plain then s.pc else s.pc + 12) else s.slot (mapReg .user r))
        ∧ t.pc = s.pc + 4 ∧ Keeps s t [pcSlot] (blockBytes form (s.reg rn) list))

/-- The checks of the block transfers (R284, R286, R287, R290, R292, R293, R452). Where several apply at once, that an empty list is named
before Rn = 15, and that the user-bank forms with W = 1 name their writeback also in User or System mode and with the base in the list,
is the model's choice (DEDUCED, log entry 10). -/
def Obligations.BlockStops : Prop :=
  ∀ (cond : Cond) (form : BlockForm) (wb : Bool) (rn : Reg) (list : BitVec 16) (s : State), Executes cond s →
    (∀ i : Instr,
      (i ∈ ldmRows.map (fun row => row.2 cond wb rn list) ∨ i ∈ stmRows.map (fun row => row.2 cond wb rn list)
        ∨ i = .ldmReturn cond form wb rn list ∨ i = .ldmUser cond form wb rn list ∨ i = .stmUser cond form wb rn list) →
      (list = 0 → exec i s = .fault (.unpredictable .emptyList))
      ∧ (list ≠ 0 → rn = 15 → exec i s = .fault (.unpredictable .pcAsBase)))
    ∧ (list ≠ 0 → rn ≠ 15 →
      (∀ i : Instr, (i ∈ ldmRows.map (fun row => row.2 cond wb rn list) ∨ i = .ldmReturn cond form wb rn list) →
        wb = true → list.getLsbD rn.val = true → exec i s = .fault (.unpredictable .ldmWritebackBaseInList))
      ∧ (∀ i ∈ stmRows.map (fun row => row.2 cond wb rn list),
        wb = true → list.getLsbD rn.val = true → (∃ q : Reg, q < rn ∧ list.getLsbD q.val = true) →
        exec i s = .fault (.unpredictable .stmWritebackBaseNotLowest))
      ∧ (wb = false → NoSpsr s →
        exec (.ldmUser cond form wb rn list) s = .fault (.unpredictable .userLdmInUserOrSystem)
        ∧ exec (.stmUser cond form wb rn list) s = .fault (.unpredictable .userStmInUserOrSystem))
      ∧ (wb = true →
        exec (.ldmUser cond form wb rn list) s = .fault (.unpredictable .userLdmWriteback)
        ∧ exec (.stmUser cond form wb rn list) s = .fault (.unpredictable .userStmWriteback)))

/-! ## Branches -/

/-- B and BL complete at every word-aligned PC: the PC read value plus four times the signed offset, the link of BL from the PC slot
itself, no flag, no memory, nothing else (R310, R311). -/
def Obligations.BranchResults : Prop :=
  ∀ (cond : Cond) (imm24 : BitVec 24) (s : State), Executes cond s → Aligned s.pc →
    let target := (if s.pcReadModel = .plain then s.pc else s.pc + 8) + BitVec.ofInt 32 (4 * imm24.toInt)
    (∃ t, exec (.b cond imm24) s = .next t ∧ t.pc = target ∧ Keeps s t [pcSlot] [] ∧ t.mem = s.mem)
    ∧ (∃ t, exec (.bl cond imm24) s = .next t ∧ t.pc = target ∧ t.reg 14 = s.pc + 4
        ∧ Keeps s t [pcSlot, mapReg s.mode 14] [] ∧ t.mem = s.mem)

/-- BX completes: T from bit 0 of Rm and the PC from its other bits, every other CPSR bit kept; with bits 1:0 = 10 the PC would be
misaligned in ARM state and nothing changes (R42, R312). -/
def Obligations.BranchExchangeResults : Prop :=
  ∀ (cond : Cond) (rm : Reg) (s : State), Executes cond s →
    (fieldAt (s.reg rm) 0 2 ≠ 2 →
      ∃ t, exec (.bx cond rm) s = .next t ∧ t.pc = s.reg rm &&& 0xFFFFFFFE ∧ t.t = (s.reg rm).getLsbD 0
        ∧ (∀ i, i < 32 → i ≠ 5 → t.cpsr.getLsbD i = s.cpsr.getLsbD i) ∧ Keeps s t [pcSlot, cpsrSlot] [] ∧ t.mem = s.mem)
    ∧ (fieldAt (s.reg rm) 0 2 = 2 → exec (.bx cond rm) s = .fault (.unpredictable .misalignedPcWrite))

/-! ## PSR transfer -/

/-- MRS completes: Rd from the CPSR, or from the current SPSR, the PC advance, nothing else; r15 as destination and an SPSR in User or
System mode stop (R390). -/
def Obligations.MrsResults : Prop :=
  ∀ (cond : Cond) (rd : Reg) (s : State), Executes cond s →
    (rd ≠ 15 →
      (∃ t, exec (.mrs cond false rd) s = .next t ∧ t.reg rd = s.cpsr ∧ t.pc = s.pc + 4
        ∧ Keeps s t [pcSlot, mapReg s.mode rd] [] ∧ t.mem = s.mem)
      ∧ (∀ k, spsrSlot s.mode = some k →
        ∃ t, exec (.mrs cond true rd) s = .next t ∧ t.reg rd = s.slot k ∧ t.pc = s.pc + 4
          ∧ Keeps s t [pcSlot, mapReg s.mode rd] [] ∧ t.mem = s.mem)
      ∧ (NoSpsr s → exec (.mrs cond true rd) s = .fault (.invalidModeAccess .read)))
    ∧ (rd = 15 → ∀ spsr, exec (.mrs cond spsr rd) s = .fault (.unpredictable .mrsToPc))

/-- MSR to the CPSR, register and immediate form (R391 to R394): the flags byte under f, the control byte under c outside User mode,
every other bit kept, the mapping of the mode written; a change of T, an invalid mode and r15 as the operand stop. -/
def Obligations.MsrCpsrResults : Prop :=
  ∀ (cond : Cond) (mask : BitVec 4) (s : State), Executes cond s → s.Inv →
    (exec (.msrCpsrReg cond mask 15) s = .fault (.unpredictable .msrFromPc))
    ∧ ∀ (i : Instr) (v : Word),
      ((∃ rm, rm ≠ 15 ∧ i = .msrCpsrReg cond mask rm ∧ v = s.reg rm)
        ∨ (∃ rot imm8, i = .msrCpsrImm cond mask rot imm8 ∧ v = (imm8.zeroExtend 32).rotateRight (2 * rot.toNat))) →
      let writes := msrWrites (decide (s.mode ≠ .user)) mask
      let m := if writes 0 then fieldAt v 0 5 else s.mode.bits
      (writes 5 = true → v.getLsbD 5 = true → exec i s = .fault (.unpredictable .msrChangesT))
      ∧ ((writes 5 = true → v.getLsbD 5 = false) →
        (Mode.ofBits m = none → exec i s = .fault (.unpredictable .invalidMode))
        ∧ ∀ mode, Mode.ofBits m = some mode →
          ∃ t, exec i s = .next t
            ∧ (∀ j, j < 32 → t.cpsr.getLsbD j = if writes j then v.getLsbD j else s.cpsr.getLsbD j)
            ∧ t.mode = mode ∧ t.pc = s.pc + 4 ∧ Frame s t [pcSlot, cpsrSlot] [] ∧ t.mem = s.mem)

/-- MSR to the SPSR, register and immediate form (R391, R392, R395): the bytes the mask names in the current mode's SPSR, any value of
T and the mode, the CPSR and everything else kept; User and System mode and r15 as the operand stop. -/
def Obligations.MsrSpsrResults : Prop :=
  ∀ (cond : Cond) (mask : BitVec 4) (s : State), Executes cond s → s.Inv →
    (exec (.msrSpsrReg cond mask 15) s = .fault (.unpredictable .msrFromPc))
    ∧ ∀ (i : Instr) (v : Word),
      ((∃ rm, rm ≠ 15 ∧ i = .msrSpsrReg cond mask rm ∧ v = s.reg rm)
        ∨ (∃ rot imm8, i = .msrSpsrImm cond mask rot imm8 ∧ v = (imm8.zeroExtend 32).rotateRight (2 * rot.toNat))) →
      (NoSpsr s → exec i s = .fault (.invalidModeAccess .write))
      ∧ ∀ k, spsrSlot s.mode = some k →
        ∃ t, exec i s = .next t
          ∧ (∀ j, j < 32 → (t.slot k).getLsbD j = if msrWrites true mask j then v.getLsbD j else (s.slot k).getLsbD j)
          ∧ t.pc = s.pc + 4 ∧ Keeps s t [pcSlot, k] [] ∧ t.mem = s.mem

/-! ## Traps and exceptions -/

/-- Exception entry (R460), every kind: the mode and vector of the kind, the old CPSR in the new mode's SPSR, the link in its r14, T
clear, I set, F set for an FIQ, N, Z, C, V and Q kept, no memory access, no other register. The driver's trap entry is this entry,
refused for an IRQ when I = 1 and for an FIQ when F = 1 (R461). -/
def Obligations.ExceptionEntry : Prop :=
  ∀ (kind : ExceptionKind) (mode : Mode) (vector link : Word) (r14 spsr : Slot),
    (kind, mode, vector, link, r14, spsr) ∈
      ([(.und, .undefined, 0x04, 4, 29, 36), (.swi, .supervisor, 0x08, 4, 25, 34), (.pabt, .abort, 0x0C, 4, 27, 35),
        (.dabt, .abort, 0x10, 8, 27, 35), (.irq, .irq, 0x18, 4, 23, 33), (.fiq, .fiq, 0x1C, 4, 21, 32)] :
        List (ExceptionKind × Mode × Word × Word × Slot × Slot)) →
    ∀ s : State, psrReserved s.cpsr = 0 →
      let t := enterException kind s
      t.mode = mode ∧ t.pc = vector ∧ t.slot r14 = s.pc + link ∧ t.slot spsr = s.cpsr
        ∧ fieldAt t.cpsr 0 5 = mode.bits ∧ t.t = false ∧ t.cpsr.getLsbD 7 = true
        ∧ t.cpsr.getLsbD 6 = (decide (kind = .fiq) || s.cpsr.getLsbD 6)
        ∧ (∀ i, 8 ≤ i → i < 32 → t.cpsr.getLsbD i = s.cpsr.getLsbD i)
        ∧ Frame s t [r14, spsr, pcSlot, cpsrSlot] [] ∧ t.mem = s.mem
        ∧ hostEnterException kind s =
            if (kind = .irq ∧ s.cpsr.getLsbD 7 = true) ∨ (kind = .fiq ∧ s.cpsr.getLsbD 6 = true) then none else some t

/-- Under TRAP_POLICY = Enter, SWI enters Supervisor mode, and the Undefined family, the coprocessor rows and every illegal word enter
Undefined mode, each ending with Next (R400, R410 to R412, R455). -/
def Obligations.TrapsEnter : Prop :=
  ∀ (cond : Cond) (s : State), Executes cond s → s.trapPolicy = .enter →
    (∀ imm24, exec (.swi cond imm24) s = .next (enterException .swi s))
    ∧ (∀ hi lo, exec (.und cond hi lo) s = .next (enterException .und s))
    ∧ (∀ hi lo, exec (.cdp cond hi lo) s = .next (enterException .und s))
    ∧ (∀ hi mid lo, exec (.mcr cond hi mid lo) s = .next (enterException .und s))
    ∧ (∀ hi mid lo, exec (.mrc cond hi mid lo) s = .next (enterException .und s))
    ∧ (∀ hi lo, exec (.stc cond hi lo) s = .next (enterException .und s))
    ∧ (∀ hi lo, exec (.ldc cond hi lo) s = .next (enterException .und s))
    ∧ (∀ w e r, decodeArm w = .error e → condOf w = cond → Answers s w r → r = .next (enterException .und s))

/-- Under TRAP_POLICY = Report the same instructions and words are reported, with the opcode or the comment field of the word that
a driver supplies or the fetch reads (R400, R410 to R412, R455). -/
def Obligations.TrapsReport : Prop :=
  ∀ (s : State) (w : Word) (r : Result),
    s.t = false → passes w s.cpsr = true → s.trapPolicy = .report → Answers s w r →
    (classifyArm w = .softwareInterrupt → r = .fault (.softwareInterrupt (fieldAt w 0 24)))
    ∧ ((classifyArm w = .undefined ∨ classifyArm w = .unmatched ∨ ∃ e, decodeArm w = .error e) → r = .fault (.undefined w))

/-- A byte the instruction would touch at which bus_ok is false ends it with BusError of the first such byte, in the order of the
accesses, after its other checks and with no effect (R92, R96). -/
def Obligations.BusErrorStops : Prop :=
  ∀ (cond : Cond) (up : Bool) (rn rd : Reg) (s : State) (bad : Word), Executes cond s →
    (∀ row ∈ loadRows, ∀ off : Offset2, off.usable = true → (row.idx.writesBack = true → rn ≠ 15 ∧ rn ≠ rd) →
      (row.byte = true → rd ≠ 15) →
      FirstBad s .read (row.bytes (address row.idx up (s.reg rn) (off.value s))) bad →
      exec (row.make cond up rn rd off) s = .fault (.busError bad .read))
    ∧ (∀ row ∈ storeRows, ∀ off : Offset2, off.usable = true → (row.idx.writesBack = true → rn ≠ 15) →
      (row.byte = true → rd ≠ 15) →
      FirstBad s .write (row.bytes (address row.idx up (s.reg rn) (off.value s))) bad →
      exec (row.make cond up rn rd off) s = .fault (.busError bad .write))
    ∧ (∀ row ∈ halfLoadRows, ∀ (idx : Index) (off : Offset3), idx ≠ .postW → off.usable = true →
      (idx.writesBack = true → rn ≠ 15 ∧ rn ≠ rd) → rd ≠ 15 →
      (row.half = true → (address idx up (s.reg rn) (off.value s)).getLsbD 0 = false) →
      FirstBad s .read (row.bytes (address idx up (s.reg rn) (off.value s))) bad →
      exec (row.make cond idx up rn rd off) s = .fault (.busError bad .read))
    ∧ (∀ (idx : Index) (off : Offset3), idx ≠ .postW → off.usable = true → (idx.writesBack = true → rn ≠ 15) → rd ≠ 15 →
      (address idx up (s.reg rn) (off.value s)).getLsbD 0 = false →
      FirstBad s .write (halfBytes (address idx up (s.reg rn) (off.value s))) bad →
      exec (.strh cond idx up rn rd off) s = .fault (.busError bad .write))
    ∧ (∀ rm : Reg, rn ≠ 15 → rd ≠ 15 → rm ≠ 15 → rn ≠ rd → rn ≠ rm →
      (FirstBad s .read (wordBytes (s.reg rn)) bad → exec (.swp cond rn rd rm) s = .fault (.busError bad .read))
      ∧ (BusOk s .read (wordBytes (s.reg rn)) → FirstBad s .write (wordBytes (s.reg rn)) bad →
          exec (.swp cond rn rd rm) s = .fault (.busError bad .write))
      ∧ (FirstBad s .read (byteBytes (s.reg rn)) bad → exec (.swpb cond rn rd rm) s = .fault (.busError bad .read))
      ∧ (BusOk s .read (byteBytes (s.reg rn)) → FirstBad s .write (byteBytes (s.reg rn)) bad →
          exec (.swpb cond rn rd rm) s = .fault (.busError bad .write)))
    ∧ (∀ (wb : Bool) (list : BitVec 16), rn ≠ 15 → list ≠ 0 →
      (∀ row ∈ ldmRows, (wb = true → list.getLsbD rn.val = false) → FirstBad s .read (blockBytes row.1 (s.reg rn) list) bad →
        exec (row.2 cond wb rn list) s = .fault (.busError bad .read))
      ∧ (∀ row ∈ stmRows, ¬ (wb = true ∧ list.getLsbD rn.val = true ∧ ∃ q : Reg, q < rn ∧ list.getLsbD q.val = true) →
        FirstBad s .write (blockBytes row.1 (s.reg rn) list) bad →
        exec (row.2 cond wb rn list) s = .fault (.busError bad .write))
      ∧ (∀ form : BlockForm, ¬ NoSpsr s →
        ((wb = true → list.getLsbD rn.val = false) → FirstBad s .read (blockBytes form (s.reg rn) list) bad →
          exec (.ldmReturn cond form wb rn list) s = .fault (.busError bad .read))
        ∧ (wb = false → FirstBad s .read (blockBytes form (s.reg rn) list) bad →
          exec (.ldmUser cond form wb rn list) s = .fault (.busError bad .read))
        ∧ (wb = false → FirstBad s .write (blockBytes form (s.reg rn) list) bad →
          exec (.stmUser cond form wb rn list) s = .fault (.busError bad .write))))

/-! ## Whole-machine rules -/

/-- The state after reset satisfies the invariant. -/
def Obligations.ResetSatisfiesInvariant : Prop := State.reset.Inv

/-- Every step, of the driver's loop or with any opcode a driver supplies, keeps the invariant, from every state that has it: the mapping table is that of a legal CPSR mode (R35, R51, R476), the
reserved PSR bits read zero (R49), the PC is aligned (R42), memory keeps its canonical form. -/
def Obligations.StepKeepsInvariant : Prop := ∀ s t : State, s.Inv → Steps s t → t.Inv

/-- No step, of the driver's loop or with any opcode, writes the parameters of the model (R11) or bus_ok (R80), and the count of free flag values moves only under
MULS_C_POLICY = Draw. -/
def Obligations.StepKeepsParameters : Prop :=
  ∀ s t : State, Steps s t → SameParams s t ∧ s.draws ≤ t.draws ∧ (s.mulsCPolicy = .unchanged → t.draws = s.draws)

/-- User mode is left only through an exception entry (R476): any other step in User mode, whatever the opcode, stays in User mode, keeps I, F and the mode
field, and writes no register of another mode and no SPSR (R35, R475). -/
def Obligations.UserModeConfined : Prop :=
  ∀ s t : State, s.mode = .user → Steps s t →
    (s.trapPolicy = .enter ∧ (t = enterException .und s ∨ t = enterException .swi s))
    ∨ (t.mode = .user ∧ fieldAt t.cpsr 0 5 = fieldAt s.cpsr 0 5 ∧ fieldAt t.cpsr 6 2 = fieldAt s.cpsr 6 2
        ∧ ∀ k, k ∉ userSlots → t.slot k = s.slot k)

/-- THUMB state is reached only by BX to an address with bit 0 set and by a return that restores a CPSR with T = 1: no other
instruction sets T (R441). -/
def Obligations.ThumbStateReached : Prop :=
  ∀ (i : Instr) (s t : State), exec i s = .next t → t.t = true →
    (∃ cond rm, i = .bx cond rm ∧ (s.reg rm).getLsbD 0 = true)
    ∨ (i.returns = true ∧ ∃ saved, s.curSpsr = some saved ∧ saved.getLsbD 5 = true)

/-- N, Z, C and V are written only by the instructions R46 lists: every other instruction keeps them. -/
def Obligations.FlagsWrittenOnlyBy : Prop :=
  ∀ (i : Instr) (s t : State), exec i s = .next t → i.writesFlags = false → i.returns = false →
    FlagsAre t s.n s.z s.c s.v

/-- An instruction that is no transfer, block transfer or swap neither reads nor writes memory: with any other memory it answers the
same and leaves that memory as it is (R81). -/
def Obligations.OnlyTransfersTouchMemory : Prop :=
  ∀ (i : Instr) (s : State) (m : Memory), i.touchesMemory = false →
    exec i { s with mem := m } = withMem m (exec i s)

/-- A byte reads as last written and a write changes no other byte; memory keeps its canonical form, in which equal contents are
equal data (R93; the canonical form is the model's own). -/
def Obligations.MemoryReadsBack : Prop :=
  ∀ s : State, s.mem.wf = true →
    (∀ (a b : Word) (v : Byte), (s.writeByte a v).readByte b = if b = a then v else s.readByte b)
    ∧ (∀ (a : Word) (v : Byte), (s.writeByte a v).mem.wf = true)
    ∧ (∀ m : Memory, m.wf = true → (∀ a : Word, m.read a.toNat = s.readByte a) → m = s.mem)

/-! ## Reset and the driver -/

/-- Reset (R490, R53), for every valid parameter set and every value of what the spec leaves unspecified: the seeded stack pointers and
PC, ARM state, the mode, masks and mapping table, reserved bits zero, every other slot its free value, memory untouched; a parameter
set with User mode or a misaligned PC is refused. -/
def Obligations.ResetEstablishes : Prop :=
  ∀ (p : ResetParams) (free : Vector Word 37) (s : State),
    ((p.mode = .user ∨ ¬ Aligned p.pc) → resetWith p free s = none)
    ∧ (p.mode ≠ .user → Aligned p.pc →
      ∃ t, resetWith p free s = some t ∧ t.slot 18 = p.spUsr ∧ t.slot 22 = p.spIrq ∧ t.slot 28 = p.spUnd ∧ t.pc = p.pc
        ∧ t.mode = p.mode ∧ fieldAt t.cpsr 0 5 = p.mode.bits ∧ t.t = false ∧ t.cpsr.getLsbD 6 = p.f ∧ t.cpsr.getLsbD 7 = p.i
        ∧ t.reservedClear = true ∧ fieldAt t.cpsr 27 5 = fieldAt free[31] 27 5
        ∧ (∀ k : Slot, k ∉ [18, 22, 28, 30, 31] → t.slot k = if k.val < 32 then free[k] else free[k] &&& psrMask)
        ∧ t.mem = s.mem ∧ SameParams s t)

/-- Banked registers are never cross-contaminated: r13 written in one mode reads back after a visit to another mode that banks its own
(R31, R36, R57). -/
def Obligations.BanksKeptApart : Prop :=
  ∀ (s : State) (v : Word) (m1 m2 : Mode),
    m1.spSlot ≠ m2.spSlot →
    ∃ s1 s2 s3 s4, hostEnterMode m1.bits s = some s1 ∧ hostWrite 13 v s1 = some s2 ∧ hostEnterMode m2.bits s2 = some s3
      ∧ hostEnterMode m1.bits s3 = some s4 ∧ hostRead 13 s4 = v ∧ hostRead 13 s3 = s.slot m2.spSlot
      ∧ (∀ k : Slot, k ≠ cpsrSlot → k ≠ m1.spSlot → s4.slot k = s.slot k) ∧ s4.mem = s.mem

end
end

