-- ==== Sys2Proof/Laws/Bits.lean ====
section
/-! SUPPORT. Bit lemmas of the field helpers (`fieldAt`, `place`) and of the PSR updates built from them. -/

namespace Sys2Proof.Machine

/-! ## Fields -/

theorem getLsbD_fieldAt {m : Nat} (v : BitVec m) (lo n i : Nat) :
    (fieldAt v lo n).getLsbD i = (decide (i < n) && v.getLsbD (lo + i)) := by
  simp [fieldAt, BitVec.getLsbD_extractLsb']

theorem getLsbD_place {n m : Nat} (lo : Nat) (v : BitVec n) (i : Nat) :
    (place lo v : BitVec m).getLsbD i = (decide (i < m) && decide (lo ≤ i) && v.getLsbD (i - lo)) := by
  simp only [place, BitVec.getLsbD_shiftLeft, BitVec.getLsbD_setWidth]
  by_cases h1 : i < m <;> by_cases h2 : lo ≤ i
  · simp [h1, h2, show i - lo < m by omega, show ¬ i < lo by omega]
  · simp [h2, show i < lo by omega]
  · simp [h1]
  · simp [h1]

theorem getLsbD_placeBit {m : Nat} (lo : Nat) (b : Bool) (i : Nat) :
    (placeBit lo b : BitVec m).getLsbD i = (decide (i < m) && decide (i = lo) && b) := by
  simp only [placeBit, getLsbD_place, BitVec.getLsbD_ofBool]
  by_cases h1 : i < m <;> by_cases h2 : i = lo
  · simp [h2]
  · simp only [h1, h2, decide_true, decide_false, Bool.true_and, Bool.false_and]
    by_cases h3 : lo ≤ i
    · simp [h3, show ¬ i - lo = 0 by omega]
    · simp [h3]
  · simp [h1]
  · simp [h1]

/-- The bits of an upper mask `0xF8000000`-like literal, by computation over its 32 bits. -/
theorem getLsbD_psrMask (i : Nat) : psrMask.getLsbD i = (decide (i < 8) || (decide (27 ≤ i) && decide (i < 32))) := by
  by_cases h : i < 32
  · have : ∀ j : Fin 32, psrMask.getLsbD j.val = (decide (j.val < 8) || (decide (27 ≤ j.val) && decide (j.val < 32))) := by
      decide
    exact this ⟨i, h⟩
  · rw [BitVec.getLsbD_of_ge _ _ (by omega)]
    simp [show ¬ i < 8 by omega, h]

/-! ## The PSR updates -/

theorem getLsbD_withNzcv (w : Word) (n z c v : Bool) (i : Nat) :
    (withNzcv w n z c v).getLsbD i =
      if i = 31 then n else if i = 30 then z else if i = 29 then c else if i = 28 then v else w.getLsbD i := by
  have hm : (0x0FFFFFFF : Word).getLsbD i = decide (i < 28) := by
    by_cases h : i < 32
    · have : ∀ j : Fin 32, (0x0FFFFFFF : Word).getLsbD j.val = decide (j.val < 28) := by decide
      exact this ⟨i, h⟩
    · rw [BitVec.getLsbD_of_ge _ _ (by omega)]
      simp [show ¬ i < 28 by omega]
  simp only [withNzcv, BitVec.getLsbD_or, BitVec.getLsbD_and, getLsbD_placeBit, hm]
  by_cases h31 : i = 31
  · subst h31; simp
  by_cases h30 : i = 30
  · subst h30; simp
  by_cases h29 : i = 29
  · subst h29; simp
  by_cases h28 : i = 28
  · subst h28; simp
  simp only [h31, h30, h29, h28, decide_false, Bool.and_false, Bool.false_and, Bool.false_or, if_false]
  by_cases h : i < 28
  · simp [h]
  · rw [BitVec.getLsbD_of_ge w i (by omega)]; simp

theorem getLsbD_withBit (w : Word) (k : Nat) (b : Bool) (i : Nat) (hk : k < 32) :
    (withBit w k b).getLsbD i = if i = k then b else w.getLsbD i := by
  simp only [withBit, BitVec.getLsbD_or, BitVec.getLsbD_and, BitVec.getLsbD_not, getLsbD_place, getLsbD_placeBit]
  by_cases h : i = k
  · subst h; simp [hk]
  · simp only [h, decide_false, Bool.and_false, Bool.false_and, Bool.or_false, if_false]
    by_cases h1 : i < 32
    · by_cases h2 : k ≤ i
      · have : (1#1).getLsbD (i - k) = false := BitVec.getLsbD_of_ge _ _ (by omega)
        simp [h1, this]
      · simp [h1, h2]
    · rw [BitVec.getLsbD_of_ge w i (by omega)]; simp

theorem getLsbD_withMode (w : Word) (m : Mode) (i : Nat) :
    (withMode w m).getLsbD i = if i < 5 then m.bits.getLsbD i else w.getLsbD i := by
  have hm : (0xFFFFFFE0 : Word).getLsbD i = (decide (5 ≤ i) && decide (i < 32)) := by
    by_cases h : i < 32
    · have : ∀ j : Fin 32, (0xFFFFFFE0 : Word).getLsbD j.val = (decide (5 ≤ j.val) && decide (j.val < 32)) := by decide
      exact this ⟨i, h⟩
    · rw [BitVec.getLsbD_of_ge _ _ (by omega)]
      simp [h]
  simp only [withMode, BitVec.getLsbD_or, BitVec.getLsbD_and, getLsbD_place, hm]
  by_cases h5 : i < 5
  · simp [h5, show i < 32 by omega, show ¬ 5 ≤ i by omega]
  · rw [BitVec.getLsbD_of_ge m.bits _ (by omega)]
    by_cases h : i < 32
    · simp [h5, h, show 5 ≤ i by omega]
    · rw [BitVec.getLsbD_of_ge w i (by omega)]; simp [h5]

/-- Two fields are equal when their bits are. -/
theorem fieldAt_ext {m : Nat} {v w : BitVec m} {lo n : Nat} (h : ∀ i, i < n → v.getLsbD (lo + i) = w.getLsbD (lo + i)) :
    fieldAt v lo n = fieldAt w lo n := by
  apply BitVec.eq_of_getLsbD_eq
  intro i hi
  rw [getLsbD_fieldAt, getLsbD_fieldAt, h i hi]

/-! ## Modes -/

@[simp] theorem Mode.ofBits_bits (m : Mode) : Mode.ofBits m.bits = some m := by cases m <;> rfl

theorem Mode.bits_of_ofBits {b : BitVec 5} {m : Mode} (h : Mode.ofBits b = some m) : b = m.bits := by
  revert h; cases m <;> revert b <;> decide

theorem Mode.bits_inj {m m' : Mode} (h : m.bits = m'.bits) : m = m' := by
  cases m <;> cases m' <;> first | rfl | (exact absurd h (by decide))

/-! ## Alignment -/

theorem pcAligned_false (v : Word) : pcAligned false v = true ↔ fieldAt v 0 2 = 0 := by
  have hb : ∀ i, i < 2 → (fieldAt v 0 2).getLsbD i = v.getLsbD i := fun i hi => by
    rw [getLsbD_fieldAt]; simp [hi]
  constructor
  · intro h
    simp only [pcAligned, Bool.false_eq_true, if_false, Bool.and_eq_true, Bool.not_eq_true'] at h
    apply BitVec.eq_of_getLsbD_eq
    intro i hi
    rw [hb i hi]
    have : i = 0 ∨ i = 1 := by omega
    rcases this with rfl | rfl
    · rw [h.1]; rfl
    · rw [h.2]; rfl
  · intro h
    have h0 := hb 0 (by omega)
    have h1 := hb 1 (by omega)
    rw [h] at h0 h1
    simp only [pcAligned, Bool.false_eq_true, if_false, ← h0, ← h1]
    rfl

theorem toNat_fieldAt {m : Nat} (v : BitVec m) (lo n : Nat) : (fieldAt v lo n).toNat = v.toNat / 2 ^ lo % 2 ^ n := by
  simp [fieldAt, BitVec.extractLsb'_toNat, Nat.shiftRight_eq_div_pow]

theorem pcAligned_mod (v : Word) : pcAligned false v = true ↔ v.toNat % 4 = 0 := by
  rw [pcAligned_false, ← BitVec.toNat_inj, toNat_fieldAt]
  simp

end Sys2Proof.Machine
end

