-- ==== Sys2Proof/Laws/State.lean ====
section
/-! SUPPORT. What each update of the state leaves in each field, one lemma a field and update, so that no later proof unfolds a record
update; and the slot lemmas of the Register Bank. -/

namespace Sys2Proof.Machine

/-! ## Fields -/

@[simp] theorem State.setSlot_mode (s : State) (k : Slot) (v : Word) : (s.setSlot k v).mode = s.mode := rfl
@[simp] theorem State.setSlot_mem (s : State) (k : Slot) (v : Word) : (s.setSlot k v).mem = s.mem := rfl
@[simp] theorem State.setSlot_busHoles (s : State) (k : Slot) (v : Word) : (s.setSlot k v).busHoles = s.busHoles := rfl
@[simp] theorem State.setSlot_pcReadModel (s : State) (k : Slot) (v : Word) : (s.setSlot k v).pcReadModel = s.pcReadModel := rfl
@[simp] theorem State.setSlot_mulsCPolicy (s : State) (k : Slot) (v : Word) : (s.setSlot k v).mulsCPolicy = s.mulsCPolicy := rfl
@[simp] theorem State.setSlot_trapPolicy (s : State) (k : Slot) (v : Word) : (s.setSlot k v).trapPolicy = s.trapPolicy := rfl
@[simp] theorem State.setSlot_draws (s : State) (k : Slot) (v : Word) : (s.setSlot k v).draws = s.draws := rfl

@[simp] theorem State.setReg_mode (s : State) (i : Reg) (v : Word) : (s.setReg i v).mode = s.mode := rfl
@[simp] theorem State.setReg_mem (s : State) (i : Reg) (v : Word) : (s.setReg i v).mem = s.mem := rfl
@[simp] theorem State.setReg_busHoles (s : State) (i : Reg) (v : Word) : (s.setReg i v).busHoles = s.busHoles := rfl
@[simp] theorem State.setReg_pcReadModel (s : State) (i : Reg) (v : Word) : (s.setReg i v).pcReadModel = s.pcReadModel := rfl
@[simp] theorem State.setReg_mulsCPolicy (s : State) (i : Reg) (v : Word) : (s.setReg i v).mulsCPolicy = s.mulsCPolicy := rfl
@[simp] theorem State.setReg_trapPolicy (s : State) (i : Reg) (v : Word) : (s.setReg i v).trapPolicy = s.trapPolicy := rfl
@[simp] theorem State.setReg_draws (s : State) (i : Reg) (v : Word) : (s.setReg i v).draws = s.draws := rfl

@[simp] theorem State.setUserReg_mode (s : State) (i : Reg) (v : Word) : (s.setUserReg i v).mode = s.mode := rfl
@[simp] theorem State.setUserReg_mem (s : State) (i : Reg) (v : Word) : (s.setUserReg i v).mem = s.mem := rfl
@[simp] theorem State.setUserReg_busHoles (s : State) (i : Reg) (v : Word) : (s.setUserReg i v).busHoles = s.busHoles := rfl
@[simp] theorem State.setUserReg_pcReadModel (s : State) (i : Reg) (v : Word) : (s.setUserReg i v).pcReadModel = s.pcReadModel := rfl
@[simp] theorem State.setUserReg_mulsCPolicy (s : State) (i : Reg) (v : Word) : (s.setUserReg i v).mulsCPolicy = s.mulsCPolicy := rfl
@[simp] theorem State.setUserReg_trapPolicy (s : State) (i : Reg) (v : Word) : (s.setUserReg i v).trapPolicy = s.trapPolicy := rfl
@[simp] theorem State.setUserReg_draws (s : State) (i : Reg) (v : Word) : (s.setUserReg i v).draws = s.draws := rfl

@[simp] theorem State.setPc_mode (s : State) (v : Word) : (s.setPc v).mode = s.mode := rfl
@[simp] theorem State.setPc_mem (s : State) (v : Word) : (s.setPc v).mem = s.mem := rfl
@[simp] theorem State.setPc_busHoles (s : State) (v : Word) : (s.setPc v).busHoles = s.busHoles := rfl
@[simp] theorem State.setPc_pcReadModel (s : State) (v : Word) : (s.setPc v).pcReadModel = s.pcReadModel := rfl
@[simp] theorem State.setPc_mulsCPolicy (s : State) (v : Word) : (s.setPc v).mulsCPolicy = s.mulsCPolicy := rfl
@[simp] theorem State.setPc_trapPolicy (s : State) (v : Word) : (s.setPc v).trapPolicy = s.trapPolicy := rfl
@[simp] theorem State.setPc_draws (s : State) (v : Word) : (s.setPc v).draws = s.draws := rfl

@[simp] theorem State.advance_mode (s : State) : (s.advance).mode = s.mode := rfl
@[simp] theorem State.advance_mem (s : State) : (s.advance).mem = s.mem := rfl
@[simp] theorem State.advance_busHoles (s : State) : (s.advance).busHoles = s.busHoles := rfl
@[simp] theorem State.advance_pcReadModel (s : State) : (s.advance).pcReadModel = s.pcReadModel := rfl
@[simp] theorem State.advance_mulsCPolicy (s : State) : (s.advance).mulsCPolicy = s.mulsCPolicy := rfl
@[simp] theorem State.advance_trapPolicy (s : State) : (s.advance).trapPolicy = s.trapPolicy := rfl
@[simp] theorem State.advance_draws (s : State) : (s.advance).draws = s.draws := rfl

@[simp] theorem State.setCpsr_mode (s : State) (v : Word) : (s.setCpsr v).mode = s.mode := rfl
@[simp] theorem State.setCpsr_mem (s : State) (v : Word) : (s.setCpsr v).mem = s.mem := rfl
@[simp] theorem State.setCpsr_busHoles (s : State) (v : Word) : (s.setCpsr v).busHoles = s.busHoles := rfl
@[simp] theorem State.setCpsr_pcReadModel (s : State) (v : Word) : (s.setCpsr v).pcReadModel = s.pcReadModel := rfl
@[simp] theorem State.setCpsr_mulsCPolicy (s : State) (v : Word) : (s.setCpsr v).mulsCPolicy = s.mulsCPolicy := rfl
@[simp] theorem State.setCpsr_trapPolicy (s : State) (v : Word) : (s.setCpsr v).trapPolicy = s.trapPolicy := rfl
@[simp] theorem State.setCpsr_draws (s : State) (v : Word) : (s.setCpsr v).draws = s.draws := rfl

@[simp] theorem State.setNzcv_mode (s : State) (n z c v : Bool) : (s.setNzcv n z c v).mode = s.mode := rfl
@[simp] theorem State.setNzcv_mem (s : State) (n z c v : Bool) : (s.setNzcv n z c v).mem = s.mem := rfl
@[simp] theorem State.setNzcv_busHoles (s : State) (n z c v : Bool) : (s.setNzcv n z c v).busHoles = s.busHoles := rfl
@[simp] theorem State.setNzcv_pcReadModel (s : State) (n z c v : Bool) : (s.setNzcv n z c v).pcReadModel = s.pcReadModel := rfl
@[simp] theorem State.setNzcv_mulsCPolicy (s : State) (n z c v : Bool) : (s.setNzcv n z c v).mulsCPolicy = s.mulsCPolicy := rfl
@[simp] theorem State.setNzcv_trapPolicy (s : State) (n z c v : Bool) : (s.setNzcv n z c v).trapPolicy = s.trapPolicy := rfl
@[simp] theorem State.setNzcv_draws (s : State) (n z c v : Bool) : (s.setNzcv n z c v).draws = s.draws := rfl

@[simp] theorem State.enterMode_mem (s : State) (m : Mode) : (s.enterMode m).mem = s.mem := rfl
@[simp] theorem State.enterMode_busHoles (s : State) (m : Mode) : (s.enterMode m).busHoles = s.busHoles := rfl
@[simp] theorem State.enterMode_pcReadModel (s : State) (m : Mode) : (s.enterMode m).pcReadModel = s.pcReadModel := rfl
@[simp] theorem State.enterMode_mulsCPolicy (s : State) (m : Mode) : (s.enterMode m).mulsCPolicy = s.mulsCPolicy := rfl
@[simp] theorem State.enterMode_trapPolicy (s : State) (m : Mode) : (s.enterMode m).trapPolicy = s.trapPolicy := rfl
@[simp] theorem State.enterMode_draws (s : State) (m : Mode) : (s.enterMode m).draws = s.draws := rfl

@[simp] theorem State.loadCpsr_mem (s : State) (m : Mode) (v : Word) : (s.loadCpsr m v).mem = s.mem := rfl
@[simp] theorem State.loadCpsr_busHoles (s : State) (m : Mode) (v : Word) : (s.loadCpsr m v).busHoles = s.busHoles := rfl
@[simp] theorem State.loadCpsr_pcReadModel (s : State) (m : Mode) (v : Word) : (s.loadCpsr m v).pcReadModel = s.pcReadModel := rfl
@[simp] theorem State.loadCpsr_mulsCPolicy (s : State) (m : Mode) (v : Word) : (s.loadCpsr m v).mulsCPolicy = s.mulsCPolicy := rfl
@[simp] theorem State.loadCpsr_trapPolicy (s : State) (m : Mode) (v : Word) : (s.loadCpsr m v).trapPolicy = s.trapPolicy := rfl
@[simp] theorem State.loadCpsr_draws (s : State) (m : Mode) (v : Word) : (s.loadCpsr m v).draws = s.draws := rfl

@[simp] theorem State.setT_mode (s : State) (t : Bool) : (s.setT t).mode = s.mode := rfl
@[simp] theorem State.setT_mem (s : State) (t : Bool) : (s.setT t).mem = s.mem := rfl
@[simp] theorem State.setT_busHoles (s : State) (t : Bool) : (s.setT t).busHoles = s.busHoles := rfl
@[simp] theorem State.setT_pcReadModel (s : State) (t : Bool) : (s.setT t).pcReadModel = s.pcReadModel := rfl
@[simp] theorem State.setT_mulsCPolicy (s : State) (t : Bool) : (s.setT t).mulsCPolicy = s.mulsCPolicy := rfl
@[simp] theorem State.setT_trapPolicy (s : State) (t : Bool) : (s.setT t).trapPolicy = s.trapPolicy := rfl
@[simp] theorem State.setT_draws (s : State) (t : Bool) : (s.setT t).draws = s.draws := rfl

@[simp] theorem State.writeByte_mode (s : State) (a : Word) (v : Byte) : (s.writeByte a v).mode = s.mode := rfl
@[simp] theorem State.writeByte_busHoles (s : State) (a : Word) (v : Byte) : (s.writeByte a v).busHoles = s.busHoles := rfl
@[simp] theorem State.writeByte_pcReadModel (s : State) (a : Word) (v : Byte) : (s.writeByte a v).pcReadModel = s.pcReadModel := rfl
@[simp] theorem State.writeByte_mulsCPolicy (s : State) (a : Word) (v : Byte) : (s.writeByte a v).mulsCPolicy = s.mulsCPolicy := rfl
@[simp] theorem State.writeByte_trapPolicy (s : State) (a : Word) (v : Byte) : (s.writeByte a v).trapPolicy = s.trapPolicy := rfl
@[simp] theorem State.writeByte_draws (s : State) (a : Word) (v : Byte) : (s.writeByte a v).draws = s.draws := rfl

@[simp] theorem State.writeHalf_mode (s : State) (a : Word) (v : Half) : (s.writeHalf a v).mode = s.mode := rfl
@[simp] theorem State.writeHalf_busHoles (s : State) (a : Word) (v : Half) : (s.writeHalf a v).busHoles = s.busHoles := rfl
@[simp] theorem State.writeHalf_pcReadModel (s : State) (a : Word) (v : Half) : (s.writeHalf a v).pcReadModel = s.pcReadModel := rfl
@[simp] theorem State.writeHalf_mulsCPolicy (s : State) (a : Word) (v : Half) : (s.writeHalf a v).mulsCPolicy = s.mulsCPolicy := rfl
@[simp] theorem State.writeHalf_trapPolicy (s : State) (a : Word) (v : Half) : (s.writeHalf a v).trapPolicy = s.trapPolicy := rfl
@[simp] theorem State.writeHalf_draws (s : State) (a : Word) (v : Half) : (s.writeHalf a v).draws = s.draws := rfl

@[simp] theorem State.writeWord_mode (s : State) (a v : Word) : (s.writeWord a v).mode = s.mode := rfl
@[simp] theorem State.writeWord_busHoles (s : State) (a v : Word) : (s.writeWord a v).busHoles = s.busHoles := rfl
@[simp] theorem State.writeWord_pcReadModel (s : State) (a v : Word) : (s.writeWord a v).pcReadModel = s.pcReadModel := rfl
@[simp] theorem State.writeWord_mulsCPolicy (s : State) (a v : Word) : (s.writeWord a v).mulsCPolicy = s.mulsCPolicy := rfl
@[simp] theorem State.writeWord_trapPolicy (s : State) (a v : Word) : (s.writeWord a v).trapPolicy = s.trapPolicy := rfl
@[simp] theorem State.writeWord_draws (s : State) (a v : Word) : (s.writeWord a v).draws = s.draws := rfl

@[simp] theorem State.enterMode_mode (s : State) (m : Mode) : (s.enterMode m).mode = m := rfl
@[simp] theorem State.loadCpsr_mode (s : State) (m : Mode) (v : Word) : (s.loadCpsr m v).mode = m := rfl
@[simp] theorem State.writeByte_mem (s : State) (a : Word) (v : Byte) : (s.writeByte a v).mem = s.mem.write a.toNat v := rfl

@[simp] theorem State.setSpsr_mode (s : State) (v : Word) : (s.setSpsr v).mode = s.mode := by
  unfold State.setSpsr; split <;> rfl
@[simp] theorem State.setSpsr_mem (s : State) (v : Word) : (s.setSpsr v).mem = s.mem := by
  unfold State.setSpsr; split <;> rfl
@[simp] theorem State.setSpsr_busHoles (s : State) (v : Word) : (s.setSpsr v).busHoles = s.busHoles := by
  unfold State.setSpsr; split <;> rfl
@[simp] theorem State.setSpsr_pcReadModel (s : State) (v : Word) : (s.setSpsr v).pcReadModel = s.pcReadModel := by
  unfold State.setSpsr; split <;> rfl
@[simp] theorem State.setSpsr_mulsCPolicy (s : State) (v : Word) : (s.setSpsr v).mulsCPolicy = s.mulsCPolicy := by
  unfold State.setSpsr; split <;> rfl
@[simp] theorem State.setSpsr_trapPolicy (s : State) (v : Word) : (s.setSpsr v).trapPolicy = s.trapPolicy := by
  unfold State.setSpsr; split <;> rfl
@[simp] theorem State.setSpsr_draws (s : State) (v : Word) : (s.setSpsr v).draws = s.draws := by
  unfold State.setSpsr; split <;> rfl

@[simp] theorem commitFlags_mode (o : AluOut) (s : State) : (commitFlags o s).mode = s.mode := rfl
@[simp] theorem commitFlags_mem (o : AluOut) (s : State) : (commitFlags o s).mem = s.mem := rfl
@[simp] theorem commitFlags_busHoles (o : AluOut) (s : State) : (commitFlags o s).busHoles = s.busHoles := rfl
@[simp] theorem commitFlags_pcReadModel (o : AluOut) (s : State) : (commitFlags o s).pcReadModel = s.pcReadModel := rfl
@[simp] theorem commitFlags_mulsCPolicy (o : AluOut) (s : State) : (commitFlags o s).mulsCPolicy = s.mulsCPolicy := rfl
@[simp] theorem commitFlags_trapPolicy (o : AluOut) (s : State) : (commitFlags o s).trapPolicy = s.trapPolicy := rfl
@[simp] theorem commitFlags_draws (o : AluOut) (s : State) : (commitFlags o s).draws = s.draws := rfl
@[simp] theorem mulFlags_mode (n z : Bool) (s : State) : (mulFlags n z s).mode = s.mode := by
  unfold mulFlags; split <;> rfl
@[simp] theorem mulFlags_mem (n z : Bool) (s : State) : (mulFlags n z s).mem = s.mem := by
  unfold mulFlags; split <;> rfl
@[simp] theorem mulFlags_busHoles (n z : Bool) (s : State) : (mulFlags n z s).busHoles = s.busHoles := by
  unfold mulFlags; split <;> rfl
@[simp] theorem mulFlags_pcReadModel (n z : Bool) (s : State) : (mulFlags n z s).pcReadModel = s.pcReadModel := by
  unfold mulFlags; split <;> rfl
@[simp] theorem mulFlags_mulsCPolicy (n z : Bool) (s : State) : (mulFlags n z s).mulsCPolicy = s.mulsCPolicy := by
  unfold mulFlags; split <;> rfl
@[simp] theorem mulFlags_trapPolicy (n z : Bool) (s : State) : (mulFlags n z s).trapPolicy = s.trapPolicy := by
  unfold mulFlags; split <;> rfl
@[simp] theorem longMulFlags_mode (n z : Bool) (s : State) : (longMulFlags n z s).mode = s.mode := by
  unfold longMulFlags; split <;> rfl
@[simp] theorem longMulFlags_mem (n z : Bool) (s : State) : (longMulFlags n z s).mem = s.mem := by
  unfold longMulFlags; split <;> rfl
@[simp] theorem longMulFlags_busHoles (n z : Bool) (s : State) : (longMulFlags n z s).busHoles = s.busHoles := by
  unfold longMulFlags; split <;> rfl
@[simp] theorem longMulFlags_pcReadModel (n z : Bool) (s : State) : (longMulFlags n z s).pcReadModel = s.pcReadModel := by
  unfold longMulFlags; split <;> rfl
@[simp] theorem longMulFlags_mulsCPolicy (n z : Bool) (s : State) : (longMulFlags n z s).mulsCPolicy = s.mulsCPolicy := by
  unfold longMulFlags; split <;> rfl
@[simp] theorem longMulFlags_trapPolicy (n z : Bool) (s : State) : (longMulFlags n z s).trapPolicy = s.trapPolicy := by
  unfold longMulFlags; split <;> rfl
@[simp] theorem commitWb_mode (rn : Reg) (wb : Option Word) (s : State) : (commitWb rn wb s).mode = s.mode := by
  cases wb <;> rfl
@[simp] theorem commitWb_mem (rn : Reg) (wb : Option Word) (s : State) : (commitWb rn wb s).mem = s.mem := by
  cases wb <;> rfl
@[simp] theorem commitWb_busHoles (rn : Reg) (wb : Option Word) (s : State) : (commitWb rn wb s).busHoles = s.busHoles := by
  cases wb <;> rfl
@[simp] theorem commitWb_pcReadModel (rn : Reg) (wb : Option Word) (s : State) : (commitWb rn wb s).pcReadModel = s.pcReadModel := by
  cases wb <;> rfl
@[simp] theorem commitWb_mulsCPolicy (rn : Reg) (wb : Option Word) (s : State) : (commitWb rn wb s).mulsCPolicy = s.mulsCPolicy := by
  cases wb <;> rfl
@[simp] theorem commitWb_trapPolicy (rn : Reg) (wb : Option Word) (s : State) : (commitWb rn wb s).trapPolicy = s.trapPolicy := by
  cases wb <;> rfl
@[simp] theorem commitWb_draws (rn : Reg) (wb : Option Word) (s : State) : (commitWb rn wb s).draws = s.draws := by
  cases wb <;> rfl
@[simp] theorem blockWriteback_mode (wb : Bool) (rn : Reg) (v : Word) (s : State) :
    (blockWriteback wb rn v s).mode = s.mode := by
  cases wb <;> rfl
@[simp] theorem blockWriteback_mem (wb : Bool) (rn : Reg) (v : Word) (s : State) :
    (blockWriteback wb rn v s).mem = s.mem := by
  cases wb <;> rfl
@[simp] theorem blockWriteback_busHoles (wb : Bool) (rn : Reg) (v : Word) (s : State) :
    (blockWriteback wb rn v s).busHoles = s.busHoles := by
  cases wb <;> rfl
@[simp] theorem blockWriteback_pcReadModel (wb : Bool) (rn : Reg) (v : Word) (s : State) :
    (blockWriteback wb rn v s).pcReadModel = s.pcReadModel := by
  cases wb <;> rfl
@[simp] theorem blockWriteback_mulsCPolicy (wb : Bool) (rn : Reg) (v : Word) (s : State) :
    (blockWriteback wb rn v s).mulsCPolicy = s.mulsCPolicy := by
  cases wb <;> rfl
@[simp] theorem blockWriteback_trapPolicy (wb : Bool) (rn : Reg) (v : Word) (s : State) :
    (blockWriteback wb rn v s).trapPolicy = s.trapPolicy := by
  cases wb <;> rfl
@[simp] theorem blockWriteback_draws (wb : Bool) (rn : Reg) (v : Word) (s : State) :
    (blockWriteback wb rn v s).draws = s.draws := by
  cases wb <;> rfl

/-! ## Slots -/

theorem State.slot_setSlot (s : State) (k j : Slot) (v : Word) : (s.setSlot k v).slot j = if j = k then v else s.slot j := by
  unfold State.slot State.setSlot
  by_cases h : j = k
  · subst h; simp
  · have : ¬ k.val = j.val := fun e => h (Fin.ext e.symm)
    simp [h, this]

@[simp] theorem pcSlot_ne_cpsrSlot : ¬ pcSlot = cpsrSlot := by decide
@[simp] theorem cpsrSlot_ne_pcSlot : ¬ cpsrSlot = pcSlot := by decide

/-- A state is its slots and its other fields. -/
theorem State.ext_slots {s t : State} (hs : ∀ k, t.slot k = s.slot k) (hm : t.mode = s.mode) (hmem : t.mem = s.mem)
    (hb : t.busHoles = s.busHoles) (hp : t.pcReadModel = s.pcReadModel) (hu : t.mulsCPolicy = s.mulsCPolicy)
    (ht : t.trapPolicy = s.trapPolicy) (hd : t.draws = s.draws) : t = s := by
  have : t.phys = s.phys := by
    apply Vector.ext
    intro i hi
    simpa [State.slot] using hs ⟨i, hi⟩
  cases s; cases t; simp_all

@[simp] theorem State.slot_writeByte (s : State) (a : Word) (v : Byte) (j : Slot) : (s.writeByte a v).slot j = s.slot j := rfl
@[simp] theorem State.slot_writeHalf (s : State) (a : Word) (v : Half) (j : Slot) : (s.writeHalf a v).slot j = s.slot j := rfl
@[simp] theorem State.slot_writeWord (s : State) (a v : Word) (j : Slot) : (s.writeWord a v).slot j = s.slot j := rfl

theorem State.slot_setReg (s : State) (i : Reg) (v : Word) (j : Slot) :
    (s.setReg i v).slot j = if j = mapReg s.mode i then v else s.slot j := s.slot_setSlot _ _ _

theorem State.slot_setUserReg (s : State) (i : Reg) (v : Word) (j : Slot) :
    (s.setUserReg i v).slot j = if j = mapReg .user i then v else s.slot j := s.slot_setSlot _ _ _

theorem State.slot_setPc (s : State) (v : Word) (j : Slot) :
    (s.setPc v).slot j = if j = pcSlot then v else s.slot j := s.slot_setSlot _ _ _

theorem State.slot_advance (s : State) (j : Slot) :
    s.advance.slot j = if j = pcSlot then s.pc + 4 else s.slot j := s.slot_setSlot _ _ _

theorem State.slot_setCpsr (s : State) (v : Word) (j : Slot) :
    (s.setCpsr v).slot j = if j = cpsrSlot then v &&& psrMask else s.slot j := s.slot_setSlot _ _ _

theorem State.slot_setNzcv (s : State) (n z c v : Bool) (j : Slot) :
    (s.setNzcv n z c v).slot j = if j = cpsrSlot then withNzcv s.cpsr n z c v else s.slot j := s.slot_setSlot _ _ _

theorem State.slot_setT (s : State) (t : Bool) (j : Slot) :
    (s.setT t).slot j = if j = cpsrSlot then withBit s.cpsr 5 t else s.slot j := s.slot_setSlot _ _ _

theorem State.slot_enterMode (s : State) (m : Mode) (j : Slot) :
    (s.enterMode m).slot j = if j = cpsrSlot then withMode s.cpsr m else s.slot j := s.slot_setSlot _ _ _

theorem State.slot_loadCpsr (s : State) (m : Mode) (v : Word) (j : Slot) :
    (s.loadCpsr m v).slot j = if j = cpsrSlot then v &&& psrMask else s.slot j := by
  unfold State.loadCpsr
  rw [State.slot_setCpsr, State.slot_enterMode]
  split <;> rfl

/-! ## The mapping table -/

theorem mapReg_lt (m : Mode) (i : Reg) (h : i ≠ 15) : (mapReg m i).val < 30 := by
  cases m <;> revert i <;> decide

theorem mapReg_ne_pc (m : Mode) (i : Reg) (h : i ≠ 15) : mapReg m i ≠ pcSlot := by
  cases m <;> revert i <;> decide

theorem mapReg_ne_cpsr (m : Mode) (i : Reg) : mapReg m i ≠ cpsrSlot := by
  cases m <;> revert i <;> decide

theorem mapReg_inj {m : Mode} {i j : Reg} (h : mapReg m i = mapReg m j) : i = j := by
  cases m <;> revert i j <;> decide

@[simp] theorem mapReg_pc (m : Mode) : mapReg m 15 = pcSlot := by cases m <;> rfl

/-- An SPSR's slot is above every register's, the PC's and the CPSR's. -/
theorem spsrSlot_ge {m : Mode} {k : Slot} (h : spsrSlot m = some k) : 32 ≤ k.val := by
  cases m <;> simp [spsrSlot] at h <;> subst h <;> decide

theorem spsrSlot_none {m : Mode} : spsrSlot m = none ↔ m = .user ∨ m = .system := by cases m <;> decide

/-- A register below r15 reads its slot. -/
theorem State.reg_eq_slot (s : State) (i : Reg) (h : i ≠ 15) : s.reg i = s.slot (mapReg s.mode i) := by
  simp [State.reg, State.regIn, h]

theorem State.regLate_eq_slot (s : State) (i : Reg) (h : i ≠ 15) : s.regLate i = s.slot (mapReg s.mode i) := by
  simp [State.regLate, State.regIn, h]

theorem State.userReg_eq_slot (s : State) (i : Reg) (h : i ≠ 15) : s.userReg i = s.slot (mapReg .user i) := by
  simp [State.userReg, State.regIn, h]

/-! ## The PC and the CPSR after an update -/

@[simp] theorem State.pc_advance (s : State) : s.advance.pc = s.pc + 4 := by simp [State.pc, State.slot_advance]
@[simp] theorem State.pc_setPc (s : State) (v : Word) : (s.setPc v).pc = v := by simp [State.pc, State.slot_setPc]
@[simp] theorem State.pc_setNzcv (s : State) (n z c v : Bool) : (s.setNzcv n z c v).pc = s.pc := by
  simp [State.pc, State.slot_setNzcv, pcSlot_ne_cpsrSlot]
@[simp] theorem State.pc_setCpsr (s : State) (v : Word) : (s.setCpsr v).pc = s.pc := by simp [State.pc, State.slot_setCpsr, pcSlot_ne_cpsrSlot]
@[simp] theorem State.pc_setT (s : State) (t : Bool) : (s.setT t).pc = s.pc := by simp [State.pc, State.slot_setT, pcSlot_ne_cpsrSlot]
@[simp] theorem State.pc_enterMode (s : State) (m : Mode) : (s.enterMode m).pc = s.pc := by
  simp [State.pc, State.slot_enterMode, pcSlot_ne_cpsrSlot]
@[simp] theorem State.pc_loadCpsr (s : State) (m : Mode) (v : Word) : (s.loadCpsr m v).pc = s.pc := by
  simp [State.pc, State.slot_loadCpsr, pcSlot_ne_cpsrSlot]
@[simp] theorem State.pc_writeByte (s : State) (a : Word) (v : Byte) : (s.writeByte a v).pc = s.pc := rfl
@[simp] theorem State.pc_writeHalf (s : State) (a : Word) (v : Half) : (s.writeHalf a v).pc = s.pc := rfl
@[simp] theorem State.pc_writeWord (s : State) (a v : Word) : (s.writeWord a v).pc = s.pc := rfl
theorem State.pc_setReg (s : State) (i : Reg) (v : Word) (h : i ≠ 15) : (s.setReg i v).pc = s.pc := by
  simp [State.pc, State.slot_setReg, (mapReg_ne_pc s.mode i h).symm]

@[simp] theorem State.cpsr_advance (s : State) : s.advance.cpsr = s.cpsr := by simp [State.cpsr, State.slot_advance, cpsrSlot_ne_pcSlot]
@[simp] theorem State.cpsr_setPc (s : State) (v : Word) : (s.setPc v).cpsr = s.cpsr := by simp [State.cpsr, State.slot_setPc, cpsrSlot_ne_pcSlot]
@[simp] theorem State.cpsr_setReg (s : State) (i : Reg) (v : Word) : (s.setReg i v).cpsr = s.cpsr := by
  simp [State.cpsr, State.slot_setReg, (mapReg_ne_cpsr s.mode i).symm]
@[simp] theorem State.cpsr_setUserReg (s : State) (i : Reg) (v : Word) : (s.setUserReg i v).cpsr = s.cpsr := by
  simp [State.cpsr, State.slot_setUserReg, (mapReg_ne_cpsr .user i).symm]
@[simp] theorem State.cpsr_setNzcv (s : State) (n z c v : Bool) : (s.setNzcv n z c v).cpsr = withNzcv s.cpsr n z c v := by
  simp [State.cpsr, State.slot_setNzcv]
@[simp] theorem State.cpsr_setCpsr (s : State) (v : Word) : (s.setCpsr v).cpsr = v &&& psrMask := by
  simp [State.cpsr, State.slot_setCpsr]
@[simp] theorem State.cpsr_setT (s : State) (t : Bool) : (s.setT t).cpsr = withBit s.cpsr 5 t := by
  simp [State.cpsr, State.slot_setT]
@[simp] theorem State.cpsr_enterMode (s : State) (m : Mode) : (s.enterMode m).cpsr = withMode s.cpsr m := by
  simp [State.cpsr, State.slot_enterMode]
@[simp] theorem State.cpsr_loadCpsr (s : State) (m : Mode) (v : Word) : (s.loadCpsr m v).cpsr = v &&& psrMask := by
  simp [State.cpsr, State.slot_loadCpsr]
@[simp] theorem State.cpsr_writeByte (s : State) (a : Word) (v : Byte) : (s.writeByte a v).cpsr = s.cpsr := rfl
@[simp] theorem State.cpsr_writeHalf (s : State) (a : Word) (v : Half) : (s.writeHalf a v).cpsr = s.cpsr := rfl
@[simp] theorem State.cpsr_writeWord (s : State) (a v : Word) : (s.writeWord a v).cpsr = s.cpsr := rfl

/-! ## Registers after an update -/

theorem State.reg_setReg_same (s : State) (i : Reg) (v : Word) (h : i ≠ 15) : (s.setReg i v).reg i = v := by
  simp [State.reg_eq_slot, h, State.slot_setReg]

theorem State.reg_setReg_other (s : State) (i j : Reg) (v : Word) (h : j ≠ 15) (hij : j ≠ i) :
    (s.setReg i v).reg j = s.reg j := by
  have : mapReg s.mode j ≠ mapReg s.mode i := fun e => hij (mapReg_inj e)
  simp [State.reg_eq_slot, h, State.slot_setReg, this]

theorem State.reg_advance (s : State) (i : Reg) (h : i ≠ 15) : s.advance.reg i = s.reg i := by
  simp [State.reg_eq_slot, h, State.slot_advance, mapReg_ne_pc s.mode i h]

end Sys2Proof.Machine
end

