-- ==== Sys2Proof/Laws/Memory.lean ====
section
/-! SUPPORT. The byte store: reading after writing, the canonical form, and equal contents as equal data. -/

namespace Sys2Proof.Machine

/-! ## The list -/

theorem Memory.wfFrom_mono {lo lo' : Nat} {m : Memory} (h : lo' ≤ lo) (hm : Memory.wfFrom lo m = true) :
    Memory.wfFrom lo' m = true := by
  cases m with
  | nil => rfl
  | cons c rest =>
    simp only [Memory.wfFrom, Bool.and_eq_true, decide_eq_true_eq] at hm ⊢
    exact ⟨⟨⟨Nat.le_trans h hm.1.1.1, hm.1.1.2⟩, hm.1.2⟩, hm.2⟩

/-- Below its first address a memory reads as unwritten. -/
theorem Memory.read_below {lo : Nat} {m : Memory} (h : Memory.wfFrom lo m = true) {a : Nat} (ha : a < lo) :
    Memory.read m a = Config.unwrittenByte := by
  cases m with
  | nil => rfl
  | cons c rest =>
    simp only [Memory.wfFrom, Bool.and_eq_true, decide_eq_true_eq] at h
    have h1 : ¬ a = c.1 := by omega
    have h2 : a < c.1 := by omega
    simp [Memory.read, h1, h2]

theorem Memory.wfFrom_write (m : Memory) (lo a : Nat) (v : Byte) (h : Memory.wfFrom lo m = true) (hlo : lo ≤ a)
    (ha : a < 2 ^ 32) : Memory.wfFrom lo (Memory.write m a v) = true := by
  induction m generalizing lo with
  | nil =>
    simp only [Memory.write, Memory.cell]
    split <;> simp_all [Memory.wfFrom]
  | cons c rest ih =>
    obtain ⟨b, w⟩ := c
    simp only [Memory.wfFrom, Bool.and_eq_true, decide_eq_true_eq] at h
    obtain ⟨⟨⟨h1, h2⟩, h3⟩, h4⟩ := h
    simp only [Memory.write]
    split
    · subst_vars
      simp only [Memory.cell]
      split
      · exact Memory.wfFrom_mono (by omega) h4
      · simp_all [Memory.wfFrom]
    · split
      · simp only [Memory.cell]
        split
        · simp only [Memory.wfFrom, Bool.and_eq_true, decide_eq_true_eq]
          exact ⟨⟨⟨h1, h2⟩, h3⟩, h4⟩
        · simp only [Memory.wfFrom, Bool.and_eq_true, decide_eq_true_eq]
          refine ⟨⟨⟨hlo, ha⟩, ?_⟩, ⟨⟨by omega, h2⟩, h3⟩, h4⟩
          assumption
      · simp only [Memory.wfFrom, Bool.and_eq_true, decide_eq_true_eq]
        exact ⟨⟨⟨h1, h2⟩, h3⟩, ih _ h4 (by omega)⟩

/-- Writing a byte inside the address space keeps the canonical form. -/
theorem Memory.wf_write (m : Memory) (a : Word) (v : Byte) (h : Memory.wf m = true) :
    Memory.wf (Memory.write m a.toNat v) = true :=
  Memory.wfFrom_write m 0 a.toNat v h (Nat.zero_le _) a.isLt

theorem Memory.read_write_from (m : Memory) (lo a b : Nat) (v : Byte) (h : Memory.wfFrom lo m = true) :
    Memory.read (Memory.write m a v) b = if b = a then v else Memory.read m b := by
  induction m generalizing lo with
  | nil =>
    simp only [Memory.write, Memory.cell, Memory.read]
    split
    · subst_vars; simp [Memory.read]
    · simp only [Memory.read]; split <;> simp
  | cons c rest ih =>
    obtain ⟨k, w⟩ := c
    simp only [Memory.wfFrom, Bool.and_eq_true, decide_eq_true_eq] at h
    obtain ⟨⟨⟨h1, h2⟩, h3⟩, h4⟩ := h
    simp only [Memory.write]
    by_cases hak : a = k
    · subst hak
      simp only [if_true, Memory.cell]
      by_cases hv : v = Config.unwrittenByte
      · rw [if_pos hv]
        by_cases hba : b = a
        · simp [hba, hv, Memory.read_below h4 (Nat.lt_succ_self a)]
        · simp only [hba, if_false, Memory.read]
          by_cases hlt : b < a
          · simp [hlt, Memory.read_below h4 (show b < a + 1 by omega)]
          · simp [hlt]
      · rw [if_neg hv]
        simp only [Memory.read]
        split <;> rfl
    · rw [if_neg hak]
      by_cases hlt : a < k
      · rw [if_pos hlt]
        simp only [Memory.cell]
        by_cases hv : v = Config.unwrittenByte
        · rw [if_pos hv]
          by_cases hba : b = a
          · subst hba; simp [Memory.read, hak, hlt, hv]
          · simp [hba]
        · rw [if_neg hv]
          by_cases hba : b = a
          · simp [hba, Memory.read]
          · rw [if_neg hba]
            show (if b = a then v else if b < a then Config.unwrittenByte else Memory.read ((k, w) :: rest) b) = _
            rw [if_neg hba]
            by_cases hlt' : b < a
            · rw [if_pos hlt']
              simp [Memory.read, show ¬ b = k by omega, show b < k by omega]
            · rw [if_neg hlt']
      · rw [if_neg hlt]
        simp only [Memory.read]
        by_cases hbk : b = k
        · subst hbk; simp [Ne.symm hak]
        · simp only [hbk, if_false]
          by_cases hlt' : b < k
          · simp [hlt', show ¬ b = a by omega]
          · simp only [hlt', if_false]
            exact ih _ h4

/-- Equal contents are equal data. -/
theorem Memory.ext_from (m m' : Memory) (lo : Nat) (h : Memory.wfFrom lo m = true) (h' : Memory.wfFrom lo m' = true)
    (hr : ∀ a, a < 2 ^ 32 → Memory.read m a = Memory.read m' a) : m = m' := by
  induction m generalizing m' lo with
  | nil =>
    cases m' with
    | nil => rfl
    | cons c rest =>
      obtain ⟨k, w⟩ := c
      simp only [Memory.wfFrom, Bool.and_eq_true, decide_eq_true_eq] at h'
      have := hr k h'.1.1.2
      simp [Memory.read] at this
      exact absurd this.symm h'.1.2
  | cons c rest ih =>
    obtain ⟨k, w⟩ := c
    simp only [Memory.wfFrom, Bool.and_eq_true, decide_eq_true_eq] at h
    obtain ⟨⟨⟨h1, h2⟩, h3⟩, h4⟩ := h
    cases m' with
    | nil =>
      have := hr k h2
      simp [Memory.read] at this
      exact absurd this h3
    | cons c' rest' =>
      obtain ⟨k', w'⟩ := c'
      simp only [Memory.wfFrom, Bool.and_eq_true, decide_eq_true_eq] at h'
      obtain ⟨⟨⟨h1', h2'⟩, h3'⟩, h4'⟩ := h'
      have hk : k = k' := by
        rcases Nat.lt_trichotomy k k' with hlt | heq | hgt
        · have := hr k h2
          simp [Memory.read, Nat.ne_of_lt hlt, hlt] at this
          exact absurd this h3
        · exact heq
        · have := hr k' h2'
          simp [Memory.read, Nat.ne_of_lt hgt, hgt] at this
          exact absurd this.symm h3'
      subst hk
      have hw : w = w' := by simpa [Memory.read] using hr k h2
      subst hw
      congr 1
      apply ih rest' (k + 1) h4 h4'
      intro a ha
      by_cases hak : a < k + 1
      · rw [Memory.read_below h4 hak, Memory.read_below h4' hak]
      · have := hr a ha
        simpa [Memory.read, show ¬ a = k by omega, show ¬ a < k by omega] using this

/-! ## The bus -/

theorem State.readByte_writeByte (s : State) (a b : Word) (v : Byte) (h : s.mem.wf = true) :
    (s.writeByte a v).readByte b = if b = a then v else s.readByte b := by
  have := Memory.read_write_from s.mem 0 a.toNat b.toNat v h
  simp only [State.readByte, State.writeByte, this, BitVec.toNat_inj]

theorem State.wf_writeByte (s : State) (a : Word) (v : Byte) (h : s.mem.wf = true) : (s.writeByte a v).mem.wf = true :=
  Memory.wf_write s.mem a v h

theorem State.wf_writeHalf (s : State) (a : Word) (v : Half) (h : s.mem.wf = true) : (s.writeHalf a v).mem.wf = true :=
  State.wf_writeByte _ _ _ (State.wf_writeByte _ _ _ h)

theorem State.wf_writeWord (s : State) (a v : Word) (h : s.mem.wf = true) : (s.writeWord a v).mem.wf = true :=
  State.wf_writeByte _ _ _ (State.wf_writeByte _ _ _ (State.wf_writeByte _ _ _ (State.wf_writeByte _ _ _ h)))

/-- The four bytes of a word write, and every other byte. -/
theorem State.readByte_writeWord (s : State) (a b v : Word) (h : s.mem.wf = true) :
    (s.writeWord a v).readByte b =
      if b = a + 3 then fieldAt v 24 8 else if b = a + 2 then fieldAt v 16 8 else if b = a + 1 then fieldAt v 8 8
      else if b = a then fieldAt v 0 8 else s.readByte b := by
  have h1 := State.wf_writeByte s a (fieldAt v 0 8) h
  have h2 := State.wf_writeByte _ (a + 1) (fieldAt v 8 8) h1
  have h3 := State.wf_writeByte _ (a + 2) (fieldAt v 16 8) h2
  unfold State.writeWord
  rw [State.readByte_writeByte _ _ _ _ h3, State.readByte_writeByte _ _ _ _ h2, State.readByte_writeByte _ _ _ _ h1,
    State.readByte_writeByte _ _ _ _ h]

/-- The two bytes of a halfword write, and every other byte. -/
theorem State.readByte_writeHalf (s : State) (a b : Word) (v : Half) (h : s.mem.wf = true) :
    (s.writeHalf a v).readByte b =
      if b = a + 1 then fieldAt v 8 8 else if b = a then fieldAt v 0 8 else s.readByte b := by
  have h1 := State.wf_writeByte s a (fieldAt v 0 8) h
  unfold State.writeHalf
  rw [State.readByte_writeByte _ _ _ _ h1, State.readByte_writeByte _ _ _ _ h]

theorem wordOfBytes_fields (v : Word) : wordOfBytes (fieldAt v 0 8) (fieldAt v 8 8) (fieldAt v 16 8) (fieldAt v 24 8) = v := by
  apply BitVec.eq_of_getLsbD_eq
  intro i hi
  simp only [wordOfBytes, fieldAt, BitVec.getLsbD_append, BitVec.getLsbD_extractLsb']
  by_cases h0 : i < 8
  · simp [h0]
  · by_cases h1 : i < 16
    · simp [h0, show i - 8 < 8 by omega, show 8 + (i - 8) = i by omega]
    · by_cases h2 : i < 24
      · simp [h0, show ¬ i - 8 < 8 by omega, show i - 8 - 8 < 8 by omega, show 16 + (i - 8 - 8) = i by omega]
      · simp [h0, show ¬ i - 8 < 8 by omega, show ¬ i - 8 - 8 < 8 by omega, show i - 8 - 8 - 8 < 8 by omega,
          show 24 + (i - 8 - 8 - 8) = i by omega]

theorem halfOfBytes_fields (v : Half) : halfOfBytes (fieldAt v 0 8) (fieldAt v 8 8) = v := by
  apply BitVec.eq_of_getLsbD_eq
  intro i hi
  simp only [halfOfBytes, fieldAt, BitVec.getLsbD_append, BitVec.getLsbD_extractLsb']
  by_cases h0 : i < 8
  · simp [h0]
  · simp [h0, show i - 8 < 8 by omega, show 8 + (i - 8) = i by omega]

/-- A word reads back as written. -/
theorem State.readWord_writeWord (s : State) (a v : Word) (h : s.mem.wf = true) : (s.writeWord a v).readWord a = v := by
  have e1 : ¬ a = a + 3 := by bv_omega
  have e2 : ¬ a = a + 2 := by bv_omega
  have e3 : ¬ a = a + 1 := by bv_omega
  have e4 : ¬ a + 1 = a + 3 := by bv_omega
  have e5 : ¬ a + 1 = a + 2 := by bv_omega
  have e6 : ¬ a + 2 = a + 3 := by bv_omega
  simp only [State.readWord, State.readByte_writeWord _ _ _ _ h, e1, e2, e3, e4, e5, e6, if_false, if_true]
  exact wordOfBytes_fields v

/-- A halfword reads back as written. -/
theorem State.readHalf_writeHalf (s : State) (a : Word) (v : Half) (h : s.mem.wf = true) :
    (s.writeHalf a v).readHalf a = v := by
  have e3 : ¬ a = a + 1 := by bv_omega
  simp only [State.readHalf, State.readByte_writeHalf _ _ _ _ h, e3, if_false, if_true]
  exact halfOfBytes_fields v

end Sys2Proof.Machine
end

