-- ==== Sys2Proof/Laws/Ops.lean ====
section
/-! SUPPORT. What each shared operation can answer, said once: the gate, the bus pre-check, the PC write, the exception return, and the
shapes of the families built over them. -/

namespace Sys2Proof.Machine

/-! ## The gate -/

theorem armInstr_of_executes {c : Cond} {s : State} (h : Executes c s) (body : Result) : armInstr c s body = body := by
  simp [armInstr, h.1, h.2]

theorem armInstr_thumb {c : Cond} {s : State} (h : s.t = true) (body : Result) :
    armInstr c s body = .refused .thumbExecution := by
  simp [armInstr, h]

theorem armInstr_failed {c : Cond} {s : State} (h : s.t = false) (hc : condPasses c s.cpsr = false) (body : Result) :
    armInstr c s body = .next s.advance := by
  simp [armInstr, h, hc]

/-- A next state of a gated instruction comes from a failed condition or from its body. -/
theorem armInstr_next {c : Cond} {s t : State} {body : Result} (h : armInstr c s body = .next t) :
    s.t = false ∧ ((condPasses c s.cpsr = false ∧ t = s.advance) ∨ (condPasses c s.cpsr = true ∧ body = .next t)) := by
  unfold armInstr at h
  split at h
  · cases h
  · rename_i ht
    refine ⟨by simpa using ht, ?_⟩
    split at h
    · exact .inr ⟨by assumption, h⟩
    · rename_i hc
      cases h
      exact .inl ⟨by simpa using hc, rfl⟩

/-! ## The bus pre-check -/

theorem busCheck_ok {s : State} {d : Dir} {as : List Word} (h : BusOk s d as) (k : Result) : busCheck s d as k = k := by
  have : as.find? (fun a => !s.busOk a d) = none := by
    rw [List.find?_eq_none]
    intro a ha
    simp [h a ha]
  simp [busCheck, this]

theorem find_firstBad {s : State} {d : Dir} {as : List Word} {a : Word} (h : FirstBad s d as a) :
    as.find? (fun a => !s.busOk a d) = some a := by
  obtain ⟨before, after, rfl, hok, hbad⟩ := h
  rw [List.find?_append]
  have : before.find? (fun a => !s.busOk a d) = none := by
    rw [List.find?_eq_none]
    intro b hb
    simp [hok b hb]
  simp [this, hbad]

theorem busCheck_bad {s : State} {d : Dir} {as : List Word} {a : Word} (h : FirstBad s d as a) (k : Result) :
    busCheck s d as k = .fault (.busError a d) := by
  simp [busCheck, find_firstBad h]

theorem busCheck_next {s t : State} {d : Dir} {as : List Word} {k : Result} (h : busCheck s d as k = .next t) :
    BusOk s d as ∧ k = .next t := by
  unfold busCheck at h
  split at h
  · cases h
  · rename_i hf
    rw [List.find?_eq_none] at hf
    exact ⟨fun a ha => by simpa using hf a ha, h⟩

/-! ## Ending an instruction -/

theorem pcWrite_next {v : Word} {s t : State} (h : pcWrite v s = .next t) : pcAligned s.t v = true ∧ t = s.setPc v := by
  unfold pcWrite at h
  split at h
  · cases h
    exact ⟨by assumption, rfl⟩
  · cases h

theorem pcWrite_aligned {v : Word} {s : State} (h : pcAligned s.t v = true) : pcWrite v s = .next (s.setPc v) := by
  simp [pcWrite, h]

theorem pcWrite_misaligned {v : Word} {s : State} (h : pcAligned s.t v = false) :
    pcWrite v s = .fault (.unpredictable .misalignedPcWrite) := by
  simp [pcWrite, h]

theorem finish_next {rd : Reg} {v : Word} {s t : State} (h : finish rd v s = .next t) :
    (rd = 15 ∧ pcAligned s.t v = true ∧ t = s.setPc v) ∨ (rd ≠ 15 ∧ t = (s.setReg rd v).advance) := by
  unfold finish at h
  split at h
  · exact .inl ⟨by assumption, pcWrite_next h⟩
  · cases h
    exact .inr ⟨by assumption, rfl⟩

theorem curSpsr_some {s : State} {k : Slot} (h : spsrSlot s.mode = some k) : s.curSpsr = some (s.slot k) := by
  simp [State.curSpsr, h]

theorem curSpsr_none {s : State} : s.curSpsr = none ↔ NoSpsr s := by
  simp [State.curSpsr, NoSpsr, spsrSlot_none]

/-- A next state of an exception return: the saved word names a mode, the CPSR is that word, the target is aligned under its T. -/
theorem exceptionReturn_next {v : Word} {s t : State} (h : exceptionReturn v s = .next t) :
    ∃ saved m, s.curSpsr = some saved ∧ Mode.ofBits (fieldAt saved 0 5) = some m ∧
      pcAligned (s.loadCpsr m saved).t v = true ∧ t = (s.loadCpsr m saved).setPc v := by
  unfold exceptionReturn restoreCpsr at h
  cases hc : s.curSpsr with
  | none => simp [hc] at h
  | some saved =>
    cases hm : Mode.ofBits (fieldAt saved 0 5) with
    | none => simp [hc, hm] at h
    | some m =>
      simp only [hc, hm] at h
      exact ⟨saved, m, rfl, hm, pcWrite_next h⟩

theorem exceptionReturn_restores {v saved : Word} {m : Mode} {s : State} (hc : s.curSpsr = some saved)
    (hm : Mode.ofBits (fieldAt saved 0 5) = some m) : exceptionReturn v s = pcWrite v (s.loadCpsr m saved) := by
  simp [exceptionReturn, restoreCpsr, hc, hm]

/-- The T bit after a CPSR load is that of the loaded word. -/
theorem t_loadCpsr (s : State) (m : Mode) (v : Word) : (s.loadCpsr m v).t = v.getLsbD 5 := by
  rw [State.t, State.cpsr_loadCpsr, BitVec.getLsbD_and, getLsbD_psrMask]
  simp

/-! ## The families' shapes -/

theorem dataOp_next {f : AluIn → AluOut} {cond : Cond} {sf : Bool} {rn rd : Reg} {op : ShifterOperand} {s t : State}
    (h : dataOp f cond sf rn rd op s = .next t) :
    s.t = false ∧
      (t = s.advance ∨
        (rsIsPc op = false ∧
          ((rd ≠ 15 ∧ t = ((if sf then commitFlags (f (aluIn op rn s)) s else s).setReg rd (f (aluIn op rn s)).res).advance)
            ∨ (rd = 15 ∧ sf = false ∧ pcWrite (f (aluIn op rn s)).res s = .next t)
            ∨ (rd = 15 ∧ sf = true ∧ exceptionReturn (f (aluIn op rn s)).res s = .next t)))) := by
  obtain ⟨ht, h | h⟩ := armInstr_next h
  · exact ⟨ht, .inl h.2⟩
  · refine ⟨ht, .inr ?_⟩
    have h := h.2
    split at h
    · cases h
    · rename_i hr
      refine ⟨by simpa using hr, ?_⟩
      simp only at h
      split at h
      · rename_i hd
        cases sf
        · exact .inr (.inl ⟨hd, rfl, by simpa using h⟩)
        · exact .inr (.inr ⟨hd, rfl, by simpa using h⟩)
      · rename_i hd
        cases h
        exact .inl ⟨hd, rfl⟩

theorem testOp_next {f : AluIn → AluOut} {cond : Cond} {rn rd : Reg} {op : ShifterOperand} {s t : State}
    (h : testOp f cond rn rd op s = .next t) :
    s.t = false ∧ (t = s.advance ∨ t = (commitFlags (f (aluIn op rn s)) s).advance) := by
  obtain ⟨ht, h | h⟩ := armInstr_next h
  · exact ⟨ht, .inl h.2⟩
  · refine ⟨ht, .inr ?_⟩
    have h := h.2
    repeat (split at h; cases h)
    cases h; rfl

/-- What an address of mode 2 is when there is one: the base is never r15 where it is written back. -/
theorem checkBase_ok {rn : Reg} {ea e : EffAddr} (h : checkBase rn ea = .ok e) : e = ea ∧ (ea.wb.isSome = true → rn ≠ 15) := by
  unfold checkBase at h
  split at h
  · cases h
  · rename_i hn
    cases h
    exact ⟨rfl, fun hs hr => hn ⟨hs, hr⟩⟩

theorem modeTwo_base {idx : Index} {up : Bool} {rn : Reg} {off : Offset2} {s : State} {e : EffAddr}
    (h : modeTwo idx up rn off s = .ok e) : e.wb.isSome = true → rn ≠ 15 := by
  unfold modeTwo at h
  split at h
  · cases h
  · obtain ⟨rfl, hb⟩ := checkBase_ok h
    exact hb

theorem modeThree_base {idx : Index} {up : Bool} {rn : Reg} {off : Offset3} {s : State} {e : EffAddr}
    (h : modeThree idx up rn off s = .ok e) : e.wb.isSome = true → rn ≠ 15 := by
  unfold modeThree at h
  split at h
  · cases h
  · split at h
    · cases h
    · obtain ⟨rfl, hb⟩ := checkBase_ok h
      exact hb

theorem loadOp_next {ea : Except Fault EffAddr} {rdPc : Option Unpredictability} {half : Bool} {bytes : Word → List Word}
    {value : State → Word → Word} {cond : Cond} {rn rd : Reg} {s t : State}
    (h : loadOp ea rdPc half bytes value cond rn rd s = .next t) :
    s.t = false ∧
      (t = s.advance ∨ ∃ e, ea = .ok e ∧ transferCheck true rdPc half rn rd e = none ∧ BusOk s .read (bytes e.addr) ∧
        finish rd (value s e.addr) (commitWb rn e.wb s) = .next t) := by
  obtain ⟨ht, h | h⟩ := armInstr_next h
  · exact ⟨ht, .inl h.2⟩
  · refine ⟨ht, .inr ?_⟩
    replace h := h.2
    split at h
    · cases h
    · split at h
      · cases h
      · rename_i e _ _ hc
        obtain ⟨hb, h⟩ := busCheck_next h
        exact ⟨e, rfl, hc, hb, h⟩

theorem storeOp_next {ea : Except Fault EffAddr} {rdPc : Option Unpredictability} {half : Bool} {bytes : Word → List Word}
    {write : State → Word → State} {cond : Cond} {rn rd : Reg} {s t : State}
    (h : storeOp ea rdPc half bytes write cond rn rd s = .next t) :
    s.t = false ∧
      (t = s.advance ∨ ∃ e, ea = .ok e ∧ transferCheck false rdPc half rn rd e = none ∧ BusOk s .write (bytes e.addr) ∧
        t = (commitWb rn e.wb (write s e.addr)).advance) := by
  obtain ⟨ht, h | h⟩ := armInstr_next h
  · exact ⟨ht, .inl h.2⟩
  · refine ⟨ht, .inr ?_⟩
    replace h := h.2
    split at h
    · cases h
    · split at h
      · cases h
      · rename_i e _ _ hc
        obtain ⟨hb, h⟩ := busCheck_next h
        cases h
        exact ⟨e, rfl, hc, hb, rfl⟩

theorem swapOp_next {bytes : Word → List Word} {value : State → Word → Word} {write : State → Word → Word → State} {cond : Cond}
    {rn rd rm : Reg} {s t : State} (h : swapOp bytes value write cond rn rd rm s = .next t) :
    s.t = false ∧
      (t = s.advance ∨ (¬ (rn = 15 ∨ rd = 15 ∨ rm = 15) ∧ ¬ (rn = rd ∨ rn = rm) ∧
        t = ((write s (s.reg rn) (s.reg rm)).setReg rd (value s (s.reg rn))).advance)) := by
  obtain ⟨ht, h | h⟩ := armInstr_next h
  · exact ⟨ht, .inl h.2⟩
  · refine ⟨ht, .inr ?_⟩
    have h := h.2
    split at h
    · cases h
    · split at h
      · cases h
      · obtain ⟨_, h⟩ := busCheck_next h
        obtain ⟨_, h⟩ := busCheck_next h
        cases h
        exact ⟨by assumption, by assumption, rfl⟩

theorem blockCheck_next {rn : Reg} {list : BitVec 16} {k : Result} {t : State} (h : blockCheck rn list k = .next t) :
    popcount list ≠ 0 ∧ rn ≠ 15 ∧ k = .next t := by
  unfold blockCheck at h
  split at h
  · cases h
  · split at h
    · cases h
    · exact ⟨by assumption, by assumption, h⟩

theorem ldmOp_next {form : BlockForm} {cond : Cond} {wb : Bool} {rn : Reg} {list : BitVec 16} {s t : State}
    (h : ldmOp form cond wb rn list s = .next t) :
    s.t = false ∧
      (t = s.advance ∨ (rn ≠ 15 ∧ ∃ s', s' = loadRegs State.setReg s (transfers form (s.reg rn) list)
          (blockWriteback wb rn (blockWb form (s.reg rn) list) s) ∧
        ((∃ v, pcWord s (transfers form (s.reg rn) list) = some v ∧ pcWrite v s' = .next t) ∨
          (pcWord s (transfers form (s.reg rn) list) = none ∧ t = s'.advance)))) := by
  obtain ⟨ht, h | h⟩ := armInstr_next h
  · exact ⟨ht, .inl h.2⟩
  · refine ⟨ht, .inr ?_⟩
    obtain ⟨_, hr, h⟩ := blockCheck_next h.2
    refine ⟨hr, _, rfl, ?_⟩
    split at h
    · cases h
    · obtain ⟨_, h⟩ := busCheck_next h
      simp only at h
      split at h
      · rename_i v hv
        exact .inl ⟨v, hv, h⟩
      · rename_i hv
        cases h
        exact .inr ⟨hv, rfl⟩

theorem stmOp_next {form : BlockForm} {cond : Cond} {wb : Bool} {rn : Reg} {list : BitVec 16} {s t : State}
    (h : stmOp form cond wb rn list s = .next t) :
    s.t = false ∧
      (t = s.advance ∨ (rn ≠ 15 ∧ t = (blockWriteback wb rn (blockWb form (s.reg rn) list)
        (storeRegs s.regLate (transfers form (s.reg rn) list) s)).advance)) := by
  obtain ⟨ht, h | h⟩ := armInstr_next h
  · exact ⟨ht, .inl h.2⟩
  · refine ⟨ht, .inr ?_⟩
    obtain ⟨_, hr, h⟩ := blockCheck_next h.2
    refine ⟨hr, ?_⟩
    split at h
    · cases h
    · obtain ⟨_, h⟩ := busCheck_next h
      cases h; rfl

theorem execLdmReturn_next {form : BlockForm} {cond : Cond} {wb : Bool} {rn : Reg} {list : BitVec 16} {s t : State}
    (h : execLdmReturn cond form wb rn list s = .next t) :
    s.t = false ∧
      (t = s.advance ∨ (rn ≠ 15 ∧ ¬ NoSpsr s ∧ ∃ s', s' = loadRegs State.setReg s (transfers form (s.reg rn) list)
          (blockWriteback wb rn (blockWb form (s.reg rn) list) s) ∧
        ((∃ v, pcWord s (transfers form (s.reg rn) list) = some v ∧ exceptionReturn v s' = .next t) ∨
          (pcWord s (transfers form (s.reg rn) list) = none ∧ t = s'.advance)))) := by
  obtain ⟨ht, h | h⟩ := armInstr_next h
  · exact ⟨ht, .inl h.2⟩
  · refine ⟨ht, .inr ?_⟩
    obtain ⟨_, hr, h⟩ := blockCheck_next h.2
    split at h
    · cases h
    · split at h
      · cases h
      · rename_i hs
        rw [curSpsr_none] at hs
        refine ⟨hr, hs, _, rfl, ?_⟩
        obtain ⟨_, h⟩ := busCheck_next h
        simp only at h
        split at h
        · rename_i v hv
          exact .inl ⟨v, hv, h⟩
        · rename_i hv
          cases h
          exact .inr ⟨hv, rfl⟩

theorem execLdmUser_next {form : BlockForm} {cond : Cond} {wb : Bool} {rn : Reg} {list : BitVec 16} {s t : State}
    (h : execLdmUser cond form wb rn list s = .next t) :
    s.t = false ∧
      (t = s.advance ∨ (¬ NoSpsr s ∧ t = (loadRegs State.setUserReg s (transfers form (s.reg rn) list) s).advance)) := by
  obtain ⟨ht, h | h⟩ := armInstr_next h
  · exact ⟨ht, .inl h.2⟩
  · refine ⟨ht, .inr ?_⟩
    obtain ⟨_, _, h⟩ := blockCheck_next h.2
    split at h
    · cases h
    · split at h
      · cases h
      · obtain ⟨_, h⟩ := busCheck_next h
        cases h
        exact ⟨by assumption, rfl⟩

theorem execStmUser_next {form : BlockForm} {cond : Cond} {wb : Bool} {rn : Reg} {list : BitVec 16} {s t : State}
    (h : execStmUser cond form wb rn list s = .next t) :
    s.t = false ∧
      (t = s.advance ∨ (¬ NoSpsr s ∧ t = (storeRegs s.userReg (transfers form (s.reg rn) list) s).advance)) := by
  obtain ⟨ht, h | h⟩ := armInstr_next h
  · exact ⟨ht, .inl h.2⟩
  · refine ⟨ht, .inr ?_⟩
    obtain ⟨_, _, h⟩ := blockCheck_next h.2
    split at h
    · cases h
    · split at h
      · cases h
      · obtain ⟨_, h⟩ := busCheck_next h
        cases h
        exact ⟨by assumption, rfl⟩

theorem undefinedTrap_next {w : Word} {s t : State} (h : undefinedTrap w s = .next t) :
    s.trapPolicy = .enter ∧ t = enterException .und s := by
  unfold undefinedTrap at h
  split at h
  · cases h
  · cases h
    exact ⟨by assumption, rfl⟩

theorem softwareTrap_next {imm : BitVec 24} {s t : State} (h : softwareTrap imm s = .next t) :
    s.trapPolicy = .enter ∧ t = enterException .swi s := by
  unfold softwareTrap at h
  split at h
  · cases h
  · cases h
    exact ⟨by assumption, rfl⟩

/-! ## Lists of transfers -/

/-- The fields a list of register loads leaves, whichever bank it loads: all but the slots. -/
theorem loadRegs_fields (set : State → Reg → Word → State) (src : State)
    (hset : ∀ s r v, (set s r v).mode = s.mode ∧ (set s r v).mem = s.mem ∧ SameParams s (set s r v) ∧ (set s r v).draws = s.draws)
    (ts : List (Reg × Word)) (s : State) :
    (loadRegs set src ts s).mode = s.mode ∧ (loadRegs set src ts s).mem = s.mem ∧ SameParams s (loadRegs set src ts s) ∧
      (loadRegs set src ts s).draws = s.draws := by
  induction ts generalizing s with
  | nil => exact ⟨rfl, rfl, ⟨rfl, rfl, rfl, rfl⟩, rfl⟩
  | cons c ts ih =>
    obtain ⟨r, a⟩ := c
    simp only [loadRegs]
    split
    · exact ih s
    · obtain ⟨h1, h2, h3, h4⟩ := ih (set s r (src.readWord a))
      obtain ⟨g1, g2, g3, g4⟩ := hset s r (src.readWord a)
      exact ⟨h1.trans g1, h2.trans g2, ⟨h3.1.trans g3.1, h3.2.trans g3.2, h3.3.trans g3.3, h3.4.trans g3.4⟩, h4.trans g4⟩

/-- The fields a list of register stores leaves: all but memory. -/
theorem storeRegs_fields (get : Reg → Word) (ts : List (Reg × Word)) (s : State) :
    (storeRegs get ts s).mode = s.mode ∧ (storeRegs get ts s).phys = s.phys ∧ SameParams s (storeRegs get ts s) ∧
      (storeRegs get ts s).draws = s.draws := by
  induction ts generalizing s with
  | nil => exact ⟨rfl, rfl, ⟨rfl, rfl, rfl, rfl⟩, rfl⟩
  | cons c ts ih =>
    obtain ⟨h1, h2, h3, h4⟩ := ih (s.writeWord c.2 (get c.1))
    exact ⟨h1, h2, ⟨h3.1, h3.2, h3.3, h3.4⟩, h4⟩

theorem storeRegs_wf (get : Reg → Word) (ts : List (Reg × Word)) (s : State) (h : s.mem.wf = true) :
    (storeRegs get ts s).mem.wf = true := by
  induction ts generalizing s with
  | nil => exact h
  | cons c ts ih => exact ih _ (State.wf_writeWord _ _ _ h)

end Sys2Proof.Machine
end

