-- ==== Sys2Proof/Laws/Driver.lean ====
section
/-! SUPPORT. What the driver's deliveries between steps can do, said once: which interrupts an exception entry masks, and what each
event at one point leads to (R461, R472). -/

namespace Sys2Proof.Machine

/-- The CPSR of an exception entry is the kind's, reserved bits clear (R460). -/
theorem cpsr_enterException (kind : ExceptionKind) (s : State) : (enterException kind s).cpsr = kind.cpsr s.cpsr &&& psrMask := by
  simp only [enterException, State.cpsr_setPc, State.cpsr_setCpsr]

/-- Every exception entry sets I (R460). -/
theorem enterException_i (kind : ExceptionKind) (s : State) : (enterException kind s).cpsr.getLsbD 7 = true := by
  rw [cpsr_enterException, BitVec.getLsbD_and]
  cases kind <;> simp only [ExceptionKind.cpsr] <;> simp only [getLsbD_withBit, Nat.reduceLT] <;> rfl

/-- An FIQ entry sets F as well (R460). -/
theorem enterException_fiq_f (s : State) : (enterException .fiq s).cpsr.getLsbD 6 = true := by
  rw [cpsr_enterException, BitVec.getLsbD_and]
  simp only [ExceptionKind.cpsr]
  rw [getLsbD_withBit _ _ _ _ (by omega)]
  rfl

/-- An IRQ that is not pending or is masked changes nothing (R461). -/
theorem deliver_irq_masked (pending : Bool) (s : State) (h : pending = true → s.cpsr.getLsbD 7 = true) :
    deliver .irq pending s = s := by
  cases pending
  · rfl
  · simp only [deliver, hostEnterException, h rfl, if_true, Option.getD_none]

/-- An FIQ that is not pending or is masked changes nothing (R461). -/
theorem deliver_fiq_masked (pending : Bool) (s : State) (h : pending = true → s.cpsr.getLsbD 6 = true) :
    deliver .fiq pending s = s := by
  cases pending
  · rfl
  · simp only [deliver, hostEnterException, h rfl, if_true, Option.getD_none]

/-- An IRQ delivered after a trap entry is refused, since the entry sets I (R472). -/
theorem irq_refused_after_entry (kind : ExceptionKind) (irq : Bool) (s : State) :
    deliver .irq irq (enterException kind s) = enterException kind s :=
  deliver_irq_masked irq _ fun _ => enterException_i kind s

/-- A second FIQ delivered after an FIQ entry is refused, since the entry sets F (R472). -/
theorem fiq_refused_after_fiq (fiq : Bool) (s : State) : deliver .fiq fiq (enterException .fiq s) = enterException .fiq s :=
  deliver_fiq_masked fiq _ fun _ => enterException_fiq_f s

/-- A pending FIQ that is not masked is entered (R461). -/
theorem deliver_fiq_taken {s : State} (h : s.cpsr.getLsbD 6 = false) : deliver .fiq true s = enterException .fiq s := by
  simp only [deliver, hostEnterException, h, if_true, Bool.false_eq_true, if_false, Option.getD_some]

/-- A pending FIQ that is not masked is the one interrupt taken, since its entry masks the IRQ (R472). -/
theorem deliverInterrupts_fiq (irq : Bool) {s : State} (h : s.cpsr.getLsbD 6 = false) :
    deliverInterrupts true irq s = enterException .fiq s := by
  rw [deliverInterrupts, deliver_fiq_taken h, irq_refused_after_entry]

/-- A delivered FIQ keeps I set: it enters, which sets I, or changes nothing. -/
theorem deliver_fiq_i (fiq : Bool) {s : State} (h : s.cpsr.getLsbD 7 = true) : (deliver .fiq fiq s).cpsr.getLsbD 7 = true := by
  cases hf : fiq && !s.cpsr.getLsbD 6
  · rwa [deliver_fiq_masked fiq s (by simpa using hf)]
  · obtain ⟨rfl, h6⟩ : fiq = true ∧ s.cpsr.getLsbD 6 = false := by simpa using hf
    rw [deliver_fiq_taken h6]
    exact enterException_i .fiq s

/-- Where no interrupt is due, delivering them changes nothing. -/
theorem deliverInterrupts_none {fiq irq : Bool} {s : State} (h : interruptDue fiq irq s = false) : deliverInterrupts fiq irq s = s := by
  obtain ⟨hf, hi⟩ : (fiq = true → s.cpsr.getLsbD 6 = true) ∧ (irq = true → s.cpsr.getLsbD 7 = true) := by
    simpa [interruptDue] using h
  rw [deliverInterrupts, deliver_fiq_masked fiq s hf, deliver_irq_masked irq s hi]

/-- After the trap of an outcome only an FIQ can follow, since the entry masks the IRQ (R472). -/
theorem deliverStop_outcome (f : Fault) (hf : ∀ a, f ≠ .fetchBusError a) {kind : ExceptionKind} (hk : trapKind f = some kind)
    (fiq irq : Bool) (s : State) : deliverStop (some f) fiq irq s = deliver .fiq fiq (enterException kind s) := by
  have h : deliverStop (some f) fiq irq s = deliverInterrupts fiq irq (hostTrap f s) := by
    cases f with
    | fetchBusError a => exact absurd rfl (hf a)
    | _ => rfl
  rw [h, hostTrap, hk, deliverInterrupts, deliver_irq_masked irq _ fun _ => deliver_fiq_i fiq (enterException_i kind s)]

/-- A failed fetch enters the prefetch abort only where no interrupt is taken (R472, log entry 11). -/
theorem deliverStop_failedFetch (a : Word) (fiq irq : Bool) (s : State) :
    deliverStop (some (.fetchBusError a)) fiq irq s =
      if interruptDue fiq irq s then deliverInterrupts fiq irq s else enterException .pabt s := rfl

/-- A reset comes before everything else at its point (R472). -/
theorem deliverAll_reset {e : Events} {p : ResetParams} {free : Vector Word 37} {s t : State} (he : e.reset = some (p, free))
    (ht : resetWith p free s = some t) : deliverAll e s = deliverInterrupts e.fiq e.irq t := by
  simp [deliverAll, he, ht]

/-- With no reset, the rest of the order (R472). -/
theorem deliverAll_noReset {e : Events} (s : State) (he : e.reset = none) : deliverAll e s = deliverStop e.stop e.fiq e.irq s := by
  simp [deliverAll, he]

end Sys2Proof.Machine
end

