-- ==== Sys2Proof/Laws/Exec.lean ====
section
/-! SUPPORT. Everything an instruction can do, said once: a next state of `exec` is built from the state before by register writes,
flag writes and byte writes, and one ending. The whole-machine rules are case analyses over it. -/

namespace Sys2Proof.Machine

/-- The states an instruction `i` passes through before its ending: the updates of registers r0..r14, flags and memory it may make
from `s`. -/
inductive Upd (i : Instr) (s : State) : State → Prop
  | start : Upd i s s
  | reg {x : State} (r : Reg) (v : Word) : Upd i s x → r ≠ 15 → Upd i s (x.setReg r v)
  | userReg {x : State} (r : Reg) (v : Word) : Upd i s x → r ≠ 15 → ¬ NoSpsr s → Upd i s (x.setUserReg r v)
  | flags {x : State} (n z c v : Bool) : Upd i s x → i.writesFlags = true → Upd i s (x.setNzcv n z c v)
  | draw {x : State} : Upd i s x → s.mulsCPolicy = .draw → Upd i s { x with draws := x.draws + 1 }
  | byte {x : State} (a : Word) (v : Byte) : Upd i s x → i.touchesMemory = true → Upd i s (x.writeByte a v)

/-- How an instruction that answers `next` ends. -/
inductive Ending (i : Instr) (s : State) : State → Prop
  /-- the PC advance (R43) -/
  | advance {x : State} : Upd i s x → Ending i s x.advance
  /-- a PC write (R42) -/
  | jump {x : State} (v : Word) : Upd i s x → pcAligned x.t v = true → Ending i s (x.setPc v)
  /-- a return from an exception (R372) -/
  | restore {x : State} (saved v : Word) (m : Mode) : Upd i s x → i.returns = true → x.curSpsr = some saved →
      Mode.ofBits (fieldAt saved 0 5) = some m → pcAligned (saved.getLsbD 5) v = true →
      Ending i s ((x.loadCpsr m saved).setPc v)
  /-- BX (R312) -/
  | exchange (cond : Cond) (rm : Reg) : i = .bx cond rm → pcAligned ((s.reg rm).getLsbD 0) (s.reg rm &&& 0xFFFFFFFE) = true →
      Ending i s ((s.setT ((s.reg rm).getLsbD 0)).setPc (s.reg rm &&& 0xFFFFFFFE))
  /-- MSR to the CPSR that keeps the mode field (R393) -/
  | psr (new : Word) : (∀ k, new.getLsbD k ≠ s.cpsr.getLsbD k → 28 ≤ k → i.writesFlags = true) →
      (∀ k, new.getLsbD k ≠ s.cpsr.getLsbD k → k < 8 → s.mode ≠ .user) → new.getLsbD 5 = s.cpsr.getLsbD 5 →
      fieldAt new 0 5 = fieldAt s.cpsr 0 5 → Ending i s (s.setCpsr new).advance
  /-- MSR to the CPSR that changes the mode field (R393) -/
  | psrMode (new : Word) (m : Mode) : (∀ k, new.getLsbD k ≠ s.cpsr.getLsbD k → 28 ≤ k → i.writesFlags = true) →
      s.mode ≠ .user → new.getLsbD 5 = s.cpsr.getLsbD 5 → Mode.ofBits (fieldAt new 0 5) = some m →
      Ending i s (s.loadCpsr m new).advance
  /-- MSR to the SPSR (R395) -/
  | spsr (v : Word) : ¬ NoSpsr s → Ending i s (s.setSpsr v).advance
  /-- an exception taken under TRAP_POLICY = Enter (R455) -/
  | trap (kind : ExceptionKind) : kind = .und ∨ kind = .swi → s.trapPolicy = .enter → Ending i s (enterException kind s)

/-! ## What the updates keep -/

/-- The fields the updates of an instruction leave, from which every family's ending follows. -/
structure Upd.Kept (s x : State) : Prop where
  mode : x.mode = s.mode
  params : SameParams s x
  high : ∀ k : Slot, 32 ≤ k.val → x.slot k = s.slot k
  psr : ∀ k, k < 28 → x.cpsr.getLsbD k = s.cpsr.getLsbD k
  pc : x.pc = s.pc

theorem slot_setReg_high (x : State) (r : Reg) (v : Word) (h : r ≠ 15) (k : Slot) (hk : 30 ≤ k.val) :
    (x.setReg r v).slot k = x.slot k := by
  have := mapReg_lt x.mode r h
  rw [State.slot_setReg, if_neg]
  rintro rfl
  omega

theorem slot_setUserReg_high (x : State) (r : Reg) (v : Word) (h : r ≠ 15) (k : Slot) (hk : 30 ≤ k.val) :
    (x.setUserReg r v).slot k = x.slot k := by
  have := mapReg_lt .user r h
  rw [State.slot_setUserReg, if_neg]
  rintro rfl
  omega

theorem getLsbD_withNzcv_low (w : Word) (n z c v : Bool) (k : Nat) (hk : k < 28) :
    (withNzcv w n z c v).getLsbD k = w.getLsbD k := by
  rw [getLsbD_withNzcv, if_neg (by omega), if_neg (by omega), if_neg (by omega), if_neg (by omega)]

theorem Upd.kept {i : Instr} {s x : State} (h : Upd i s x) : Upd.Kept s x := by
  induction h with
  | start => exact ⟨rfl, ⟨rfl, rfl, rfl, rfl⟩, fun _ _ => rfl, fun _ _ => rfl, rfl⟩
  | reg r v _ hr ih =>
    refine ⟨ih.mode, ⟨ih.params.1, ih.params.2, ih.params.3, ih.params.4⟩, fun k hk => ?_, fun k hk => ?_, ?_⟩
    · rw [slot_setReg_high _ _ _ hr _ (by omega), ih.high k hk]
    · rw [State.cpsr_setReg, ih.psr k hk]
    · rw [State.pc_setReg _ _ _ hr, ih.pc]
  | userReg r v _ hr _ ih =>
    refine ⟨ih.mode, ⟨ih.params.1, ih.params.2, ih.params.3, ih.params.4⟩, fun k hk => ?_, fun k hk => ?_, ?_⟩
    · rw [slot_setUserReg_high _ _ _ hr _ (by omega), ih.high k hk]
    · rw [State.cpsr_setUserReg, ih.psr k hk]
    · exact (slot_setUserReg_high _ _ _ hr _ (by decide)).trans ih.pc
  | flags n z c v _ _ ih =>
    refine ⟨ih.mode, ⟨ih.params.1, ih.params.2, ih.params.3, ih.params.4⟩, fun k hk => ?_, fun k hk => ?_, ?_⟩
    · rw [State.slot_setNzcv, if_neg (by rintro rfl; revert hk; decide), ih.high k hk]
    · rw [State.cpsr_setNzcv, getLsbD_withNzcv_low _ _ _ _ _ _ hk, ih.psr k hk]
    · rw [State.pc_setNzcv, ih.pc]
  | draw _ _ ih => exact ⟨ih.mode, ⟨ih.params.1, ih.params.2, ih.params.3, ih.params.4⟩, ih.high, ih.psr, ih.pc⟩
  | byte a v _ _ ih => exact ⟨ih.mode, ⟨ih.params.1, ih.params.2, ih.params.3, ih.params.4⟩, ih.high, ih.psr, ih.pc⟩

theorem Upd.curSpsr {i : Instr} {s x : State} (h : Upd i s x) : x.curSpsr = s.curSpsr := by
  unfold State.curSpsr
  rw [h.kept.mode]
  cases hk : spsrSlot s.mode with
  | none => rfl
  | some k => simp [h.kept.high k (spsrSlot_ge hk)]

theorem Upd.t {i : Instr} {s x : State} (h : Upd i s x) : x.t = s.t := h.kept.psr 5 (by omega)

/-! ## Building updates -/

theorem Upd.word {i : Instr} {s x : State} (a v : Word) (h : Upd i s x) (hi : i.touchesMemory = true) :
    Upd i s (x.writeWord a v) := (((h.byte _ _ hi).byte _ _ hi).byte _ _ hi).byte _ _ hi

theorem Upd.half {i : Instr} {s x : State} (a : Word) (v : Half) (h : Upd i s x) (hi : i.touchesMemory = true) :
    Upd i s (x.writeHalf a v) := (h.byte _ _ hi).byte _ _ hi

theorem Upd.writeback {i : Instr} {s x : State} {rn : Reg} {wb : Option Word} (h : Upd i s x) (hr : wb.isSome = true → rn ≠ 15) :
    Upd i s (commitWb rn wb x) := by
  cases wb with
  | none => exact h
  | some v => exact h.reg rn v (hr rfl)

theorem Upd.blockWriteback {i : Instr} {s x : State} (wb : Bool) {rn : Reg} (v : Word) (h : Upd i s x) (hr : rn ≠ 15) :
    Upd i s (blockWriteback wb rn v x) := by
  cases wb with
  | false => exact h
  | true => exact h.reg rn v hr

theorem Upd.loads {i : Instr} {s : State} (src : State) (ts : List (Reg × Word)) {x : State} (h : Upd i s x) :
    Upd i s (loadRegs State.setReg src ts x) := by
  induction ts generalizing x with
  | nil => exact h
  | cons c ts ih =>
    obtain ⟨r, a⟩ := c
    unfold loadRegs
    split
    · exact ih h
    · rename_i hr
      exact ih (h.reg r _ hr)

theorem Upd.userLoads {i : Instr} {s : State} (src : State) (ts : List (Reg × Word)) {x : State} (hs : ¬ NoSpsr s)
    (h : Upd i s x) : Upd i s (loadRegs State.setUserReg src ts x) := by
  induction ts generalizing x with
  | nil => exact h
  | cons c ts ih =>
    obtain ⟨r, a⟩ := c
    unfold loadRegs
    split
    · exact ih h
    · rename_i hr
      exact ih (h.userReg r _ hr hs)

theorem Upd.stores {i : Instr} {s : State} (get : Reg → Word) (ts : List (Reg × Word)) {x : State} (h : Upd i s x)
    (hi : i.touchesMemory = true) : Upd i s (storeRegs get ts x) := by
  induction ts generalizing x with
  | nil => exact h
  | cons c ts ih => exact ih (h.word _ _ hi)

theorem Upd.mulFlags {i : Instr} {s x : State} (n z : Bool) (h : Upd i s x) (hi : i.writesFlags = true) :
    Upd i s (mulFlags n z x) := by
  unfold Machine.mulFlags
  split
  · exact h.flags _ _ _ _ hi
  · rename_i hd
    rw [h.kept.params.mulsCPolicy] at hd
    exact (h.flags _ _ _ _ hi).draw hd

theorem Upd.longMulFlags {i : Instr} {s x : State} (n z : Bool) (h : Upd i s x) (hi : i.writesFlags = true) :
    Upd i s (longMulFlags n z x) := by
  unfold Machine.longMulFlags
  split
  · exact h.flags _ _ _ _ hi
  · rename_i hd
    rw [h.kept.params.mulsCPolicy] at hd
    exact ((h.flags _ _ _ _ hi).draw hd).draw hd

/-! ## The families -/

theorem Ending.ofPcWrite {i : Instr} {s x t : State} {v : Word} (h : Upd i s x) (hp : pcWrite v x = .next t) : Ending i s t := by
  obtain ⟨ha, rfl⟩ := pcWrite_next hp
  exact .jump v h ha

theorem Ending.ofFinish {i : Instr} {s x t : State} {rd : Reg} {v : Word} (h : Upd i s x) (hp : finish rd v x = .next t) :
    Ending i s t := by
  rcases finish_next hp with ⟨_, ha, rfl⟩ | ⟨hr, rfl⟩
  · exact .jump v h ha
  · exact .advance (h.reg rd v hr)

theorem Ending.ofReturn {i : Instr} {s x t : State} {v : Word} (h : Upd i s x) (hi : i.returns = true)
    (hp : exceptionReturn v x = .next t) : Ending i s t := by
  obtain ⟨saved, m, hc, hm, ha, rfl⟩ := exceptionReturn_next hp
  rw [t_loadCpsr] at ha
  exact .restore saved v m h hi hc hm ha

theorem Ending.ofData {i : Instr} {f : AluIn → AluOut} {cond : Cond} {sf : Bool} {rn rd : Reg} {op : ShifterOperand} {s t : State}
    (hw : i.writesFlags = sf) (hr : i.returns = (sf && rd == 15)) (h : dataOp f cond sf rn rd op s = .next t) : Ending i s t := by
  obtain ⟨_, rfl | ⟨_, ⟨hd, rfl⟩ | ⟨_, _, hp⟩ | ⟨hd, hs, hp⟩⟩⟩ := dataOp_next h
  · exact .advance .start
  · refine .advance (.reg _ _ ?_ hd)
    cases sf with
    | false => exact .start
    | true => exact .flags _ _ _ _ .start hw
  · exact .ofPcWrite .start hp
  · refine .ofReturn .start ?_ hp
    rw [hr, hs, hd]
    rfl

theorem Ending.ofTest {i : Instr} {f : AluIn → AluOut} {cond : Cond} {rn rd : Reg} {op : ShifterOperand} {s t : State}
    (hw : i.writesFlags = true) (h : testOp f cond rn rd op s = .next t) : Ending i s t := by
  obtain ⟨_, rfl | rfl⟩ := testOp_next h
  · exact .advance .start
  · exact .advance (.flags _ _ _ _ .start hw)

theorem Ending.ofMulCommit {i : Instr} {sf : Bool} {rd : Reg} {r : Word} {s t : State} (hw : i.writesFlags = sf) (hd : rd ≠ 15)
    (h : mulCommit sf rd r s = .next t) : Ending i s t := by
  cases h
  refine .advance (.reg _ _ ?_ hd)
  cases sf with
  | false => exact .start
  | true => exact Upd.mulFlags _ _ .start hw

theorem Ending.ofLongMul {i : Instr} {f : Word → Word → Word → Word → BitVec 64} {cond : Cond} {sf : Bool} {hi lo rs rm : Reg}
    {s t : State} (hw : i.writesFlags = sf) (h : longMul f cond sf hi lo rs rm s = .next t) : Ending i s t := by
  obtain ⟨_, ⟨_, rfl⟩ | ⟨_, h⟩⟩ := armInstr_next h
  · exact .advance .start
  · split at h
    · cases h
    · rename_i hn
      simp only [not_or] at hn
      split at h
      · cases h
      · cases h
        refine .advance (.reg _ _ (.reg _ _ ?_ hn.2.1) hn.1)
        cases sf with
        | false => exact .start
        | true => exact Upd.longMulFlags _ _ .start hw

theorem Ending.ofLoad {i : Instr} {ea : Except Fault EffAddr} {rdPc : Option Unpredictability} {half : Bool}
    {bytes : Word → List Word} {value : State → Word → Word} {cond : Cond} {rn rd : Reg} {s t : State}
    (h : loadOp ea rdPc half bytes value cond rn rd s = .next t) (hb : ∀ e, ea = .ok e → e.wb.isSome = true → rn ≠ 15) :
    Ending i s t := by
  obtain ⟨_, rfl | ⟨e, he, _, _, hf⟩⟩ := loadOp_next h
  · exact .advance .start
  · exact .ofFinish (Upd.writeback .start (hb e he)) hf

theorem Ending.ofStore {i : Instr} {ea : Except Fault EffAddr} {rdPc : Option Unpredictability} {half : Bool}
    {bytes : Word → List Word} {write : State → Word → State} {cond : Cond} {rn rd : Reg} {s t : State}
    (h : storeOp ea rdPc half bytes write cond rn rd s = .next t) (hb : ∀ e, ea = .ok e → e.wb.isSome = true → rn ≠ 15)
    (hw : ∀ a, Upd i s (write s a)) : Ending i s t := by
  obtain ⟨_, rfl | ⟨e, he, _, _, rfl⟩⟩ := storeOp_next h
  · exact .advance .start
  · exact .advance (Upd.writeback (hw _) (hb e he))

theorem Ending.ofSwap {i : Instr} {bytes : Word → List Word} {value : State → Word → Word} {write : State → Word → Word → State}
    {cond : Cond} {rn rd rm : Reg} {s t : State} (h : swapOp bytes value write cond rn rd rm s = .next t)
    (hw : ∀ a v, Upd i s (write s a v)) : Ending i s t := by
  obtain ⟨_, rfl | ⟨hn, _, rfl⟩⟩ := swapOp_next h
  · exact .advance .start
  · simp only [not_or] at hn
    exact .advance (.reg _ _ (hw _ _) hn.2.1)

theorem Ending.ofLdm {i : Instr} {form : BlockForm} {cond : Cond} {wb : Bool} {rn : Reg} {list : BitVec 16} {s t : State}
    (h : ldmOp form cond wb rn list s = .next t) : Ending i s t := by
  obtain ⟨_, rfl | ⟨hr, s', rfl, ⟨v, _, hp⟩ | ⟨_, rfl⟩⟩⟩ := ldmOp_next h
  · exact .advance .start
  · exact .ofPcWrite (.loads _ _ (.blockWriteback _ _ .start hr)) hp
  · exact .advance (.loads _ _ (.blockWriteback _ _ .start hr))

theorem Ending.ofStm {i : Instr} {form : BlockForm} {cond : Cond} {wb : Bool} {rn : Reg} {list : BitVec 16} {s t : State}
    (hi : i.touchesMemory = true) (h : stmOp form cond wb rn list s = .next t) : Ending i s t := by
  obtain ⟨_, rfl | ⟨hr, rfl⟩⟩ := stmOp_next h
  · exact .advance .start
  · exact .advance (.blockWriteback _ _ (.stores _ _ .start hi) hr)

theorem Ending.ofUndefined {i : Instr} {cond : Cond} {w : Word} {s t : State}
    (h : armInstr cond s (undefinedTrap w s) = .next t) : Ending i s t := by
  obtain ⟨_, ⟨_, rfl⟩ | ⟨_, h⟩⟩ := armInstr_next h
  · exact .advance .start
  · obtain ⟨hp, rfl⟩ := undefinedTrap_next h
    exact .trap .und (.inl rfl) hp

theorem getLsbD_mergePsr (old mask v : Word) (k : Nat) :
    (mergePsr old mask v).getLsbD k = if mask.getLsbD k then v.getLsbD k else old.getLsbD k := by
  by_cases hk : k < 32
  · simp only [mergePsr, BitVec.getLsbD_or, BitVec.getLsbD_and, BitVec.getLsbD_not, hk]
    cases mask.getLsbD k <;> simp
  · simp [BitVec.getLsbD_of_ge _ _ (Nat.le_of_not_lt hk)]

theorem getLsbD_msrMask (m : BitVec 4) (k : Nat) :
    (msrMask m).getLsbD k = ((decide (27 ≤ k) && decide (k < 32) && m.getLsbD 3) || (decide (k < 8) && m.getLsbD 0)) := by
  by_cases hk : k < 32
  · have : ∀ (m : BitVec 4) (k : Fin 32), (msrMask m).getLsbD k.val =
        ((decide (27 ≤ k.val) && decide (k.val < 32) && m.getLsbD 3) || (decide (k.val < 8) && m.getLsbD 0)) := by decide
    exact this m ⟨k, hk⟩
  · rw [BitVec.getLsbD_of_ge _ _ (by omega)]
    simp [hk, show ¬ k < 8 by omega]

theorem getLsbD_highByte (k : Nat) : (0xFF000000 : Word).getLsbD k = (decide (24 ≤ k) && decide (k < 32)) := by
  by_cases hk : k < 32
  · have : ∀ k : Fin 32, (0xFF000000 : Word).getLsbD k.val = (decide (24 ≤ k.val) && decide (k.val < 32)) := by decide
    exact this ⟨k, hk⟩
  · rw [BitVec.getLsbD_of_ge _ _ (by omega)]
    simp [hk]

/-- The mask MSR applies to the CPSR (R393). -/
theorem msrMask_bits {m : BitVec 4} {s : State} {k : Nat}
    (h : (if s.mode = .user then msrMask m &&& 0xFF000000 else msrMask m).getLsbD k = true) :
    (28 ≤ k → m.getLsbD 3 = true) ∧ (k < 8 → s.mode ≠ .user) := by
  constructor
  · intro h28
    split at h <;> simp only [BitVec.getLsbD_and, getLsbD_msrMask, show ¬ k < 8 by omega, decide_false, Bool.false_and,
      Bool.or_false, Bool.and_eq_true] at h
    · exact h.1.2
    · exact h.2
  · intro h8 hu
    rw [if_pos hu, BitVec.getLsbD_and, getLsbD_highByte] at h
    simp [show ¬ 24 ≤ k by omega] at h

theorem Ending.ofMsrCpsr {i : Instr} {m : BitVec 4} {v : Word} {s t : State} (hw : i.writesFlags = m.getLsbD 3)
    (h : msrCpsr m v s = .next t) : Ending i s t := by
  unfold msrCpsr at h
  simp only at h
  have hmask := fun k => msrMask_bits (m := m) (s := s) (k := k)
  generalize (if s.mode = .user then msrMask m &&& 0xFF000000 else msrMask m) = mask at h hmask
  have hnew : ∀ k, (mergePsr s.cpsr mask v).getLsbD k ≠ s.cpsr.getLsbD k → mask.getLsbD k = true := by
    intro k hk
    rw [getLsbD_mergePsr] at hk
    split at hk
    · assumption
    · exact absurd rfl hk
  generalize mergePsr s.cpsr mask v = new at h hnew
  have hflags : ∀ k, new.getLsbD k ≠ s.cpsr.getLsbD k → 28 ≤ k → i.writesFlags = true :=
    fun k hk h28 => hw.trans ((hmask k (hnew k hk)).1 h28)
  have huser : ∀ k, new.getLsbD k ≠ s.cpsr.getLsbD k → k < 8 → s.mode ≠ .user := fun k hk => (hmask k (hnew k hk)).2
  split at h
  · cases h
  · rename_i h5
    rw [ne_eq, Decidable.not_not] at h5
    split at h
    · rename_i hf
      cases h
      exact .psr new hflags huser h5 hf
    · rename_i hf
      split at h
      · cases h
      · rename_i mode hm
        cases h
        refine .psrMode new mode hflags (fun hu => hf (fieldAt_ext (fun k hk => ?_))) h5 hm
        apply Decidable.byContradiction
        intro hne
        exact huser _ hne (by omega) hu

theorem Ending.ofMsrSpsr {i : Instr} {m : BitVec 4} {v : Word} {s t : State} (h : msrSpsr m v s = .next t) : Ending i s t := by
  unfold msrSpsr at h
  split at h
  · cases h
  · rename_i old ho
    cases h
    refine .spsr _ (fun hn => ?_)
    rw [curSpsr_none.mpr hn] at ho
    cases ho

/-- The gate passed or failed, for the families whose body is given as it stands. -/
theorem Ending.ofGate {i : Instr} {c : Cond} {s t : State} {body : Result} (h : armInstr c s body = .next t)
    (hb : body = .next t → Ending i s t) : Ending i s t := by
  obtain ⟨_, ⟨_, rfl⟩ | ⟨_, h⟩⟩ := armInstr_next h
  · exact .advance .start
  · exact hb h

/-- In THUMB state no instruction answers `next`. -/
theorem exec_next_arm {i : Instr} {s t : State} (h : exec i s = .next t) : s.t = false := by
  cases ht : s.t with
  | false => rfl
  | true =>
    have : exec i s = .refused .thumbExecution := by
      cases i <;> first | rfl | exact armInstr_thumb ht _
    rw [this] at h
    cases h

/-- Every next state of every instruction, by its ending. -/
theorem exec_next {i : Instr} {s t : State} (h : exec i s = .next t) : Ending i s t := by
  cases i with
  | and | eor | sub | rsb | add | adc | sbc | rsc | orr | mov | bic | mvn => exact .ofData rfl rfl h
  | tst | teq | cmp | cmn => exact .ofTest rfl h
  | mul =>
    refine .ofGate h (fun h => ?_)
    split at h
    · cases h
    · rename_i hn
      simp only [not_or] at hn
      split at h
      · cases h
      · exact .ofMulCommit rfl hn.1 h
  | mla =>
    refine .ofGate h (fun h => ?_)
    split at h
    · cases h
    · rename_i hn
      simp only [not_or] at hn
      split at h
      · cases h
      · exact .ofMulCommit rfl hn.1 h
  | umull =>
    have h : longMul (fun m x _ _ => umul64 m x) _ _ _ _ _ _ s = .next t := h
    exact .ofLongMul rfl h
  | umlal =>
    have h : longMul umla64 _ _ _ _ _ _ s = .next t := h
    exact .ofLongMul rfl h
  | smull =>
    have h : longMul (fun m x _ _ => smul64 m x) _ _ _ _ _ _ s = .next t := h
    exact .ofLongMul rfl h
  | smlal =>
    have h : longMul smla64 _ _ _ _ _ _ s = .next t := h
    exact .ofLongMul rfl h
  | swp =>
    have h : swapOp wordBytes (fun t a => t.loadRotated a) (fun t a v => t.writeWord (align4 a) v) _ _ _ _ s = .next t := h
    exact .ofSwap h (fun _ _ => .word _ _ .start rfl)
  | swpb =>
    have h : swapOp byteBytes (fun t a => (t.readByte a).setWidth 32) (fun t a v => t.writeByte a (fieldAt v 0 8)) _ _ _ _ s
      = .next t := h
    exact .ofSwap h (fun _ _ => .byte _ _ .start rfl)
  | ldr c idx up rn rd off =>
    have h : loadWord (modeTwo idx up rn off s) c rn rd s = .next t := h
    exact .ofLoad h (fun _ he => modeTwo_base he)
  | ldrb c idx up rn rd off =>
    have h : loadByte (modeTwo idx up rn off s) c rn rd s = .next t := h
    exact .ofLoad h (fun _ he => modeTwo_base he)
  | ldrt c up rn rd off =>
    have h : loadWord (modeTwo .postW up rn off s) c rn rd s = .next t := h
    exact .ofLoad h (fun _ he => modeTwo_base he)
  | ldrbt c up rn rd off =>
    have h : loadByte (modeTwo .postW up rn off s) c rn rd s = .next t := h
    exact .ofLoad h (fun _ he => modeTwo_base he)
  | str c idx up rn rd off =>
    have h : storeWord (modeTwo idx up rn off s) c rn rd s = .next t := h
    exact .ofStore h (fun _ he => modeTwo_base he) (fun _ => .word _ _ .start rfl)
  | strb c idx up rn rd off =>
    have h : storeByte (modeTwo idx up rn off s) c rn rd s = .next t := h
    exact .ofStore h (fun _ he => modeTwo_base he) (fun _ => .byte _ _ .start rfl)
  | strt c up rn rd off =>
    have h : storeWord (modeTwo .postW up rn off s) c rn rd s = .next t := h
    exact .ofStore h (fun _ he => modeTwo_base he) (fun _ => .word _ _ .start rfl)
  | strbt c up rn rd off =>
    have h : storeByte (modeTwo .postW up rn off s) c rn rd s = .next t := h
    exact .ofStore h (fun _ he => modeTwo_base he) (fun _ => .byte _ _ .start rfl)
  | ldrh c idx up rn rd off =>
    have h : loadOp (modeThree idx up rn off s) (some .ldrhToPc) true halfBytes (fun t a => (t.readHalf a).setWidth 32) c rn rd s
      = .next t := h
    exact .ofLoad h (fun _ he => modeThree_base he)
  | ldrsb c idx up rn rd off =>
    have h : loadOp (modeThree idx up rn off s) (some .ldrsbToPc) false byteBytes (fun t a => (t.readByte a).signExtend 32) c rn
      rd s = .next t := h
    exact .ofLoad h (fun _ he => modeThree_base he)
  | ldrsh c idx up rn rd off =>
    have h : loadOp (modeThree idx up rn off s) (some .ldrshToPc) true halfBytes (fun t a => (t.readHalf a).signExtend 32) c rn
      rd s = .next t := h
    exact .ofLoad h (fun _ he => modeThree_base he)
  | strh c idx up rn rd off =>
    have h : storeOp (modeThree idx up rn off s) (some .strhOfPc) true halfBytes
      (fun t a => t.writeHalf a (fieldAt (s.reg rd) 0 16)) c rn rd s = .next t := h
    exact .ofStore h (fun _ he => modeThree_base he) (fun _ => .half _ _ .start rfl)
  | ldmia | ldmib | ldmda | ldmdb => exact .ofLdm h
  | stmia | stmib | stmda | stmdb => exact .ofStm rfl h
  | ldmReturn =>
    obtain ⟨_, rfl | ⟨hr, _, s', rfl, ⟨v, _, hp⟩ | ⟨_, rfl⟩⟩⟩ := execLdmReturn_next h
    · exact .advance .start
    · exact .ofReturn (.loads _ _ (.blockWriteback _ _ .start hr)) rfl hp
    · exact .advance (.loads _ _ (.blockWriteback _ _ .start hr))
  | ldmUser =>
    obtain ⟨_, rfl | ⟨hs, rfl⟩⟩ := execLdmUser_next h
    · exact .advance .start
    · exact .advance (.userLoads _ _ hs .start)
  | stmUser =>
    obtain ⟨_, rfl | ⟨_, rfl⟩⟩ := execStmUser_next h
    · exact .advance .start
    · exact .advance (.stores _ _ .start rfl)
  | b => exact .ofGate h (fun h => .ofPcWrite .start h)
  | bl => exact .ofGate h (fun h => .ofPcWrite (.reg _ _ .start (by decide)) h)
  | bx cond rm =>
    refine .ofGate h (fun h => ?_)
    obtain ⟨ha, rfl⟩ := pcWrite_next h
    have ht : (s.setT ((s.reg rm).getLsbD 0)).t = (s.reg rm).getLsbD 0 := by
      rw [State.t, State.cpsr_setT, getLsbD_withBit _ _ _ _ (by omega)]
      simp
    rw [ht] at ha
    exact .exchange cond rm rfl ha
  | mrs cond sp rd =>
    refine .ofGate h (fun h => ?_)
    split at h
    · cases h
    · rename_i hr
      split at h
      · split at h
        · cases h
          exact .advance (.reg _ _ .start hr)
        · cases h
      · cases h
        exact .advance (.reg _ _ .start hr)
  | msrCpsrReg cond m rm =>
    refine .ofGate h (fun h => ?_)
    unfold msrFromReg at h
    split at h
    · cases h
    · exact .ofMsrCpsr rfl h
  | msrSpsrReg cond m rm =>
    refine .ofGate h (fun h => ?_)
    unfold msrFromReg at h
    split at h
    · cases h
    · exact .ofMsrSpsr h
  | msrCpsrImm => exact .ofGate h (fun h => .ofMsrCpsr rfl h)
  | msrSpsrImm => exact .ofGate h (fun h => .ofMsrSpsr h)
  | swi =>
    refine .ofGate h (fun h => ?_)
    obtain ⟨hp, rfl⟩ := softwareTrap_next h
    exact .trap .swi (.inr rfl) hp
  | und | cdp | mcr | mrc | stc | ldc => exact .ofUndefined h
  | _ => cases h

/-- Every next state of the CORE with an opcode: that of an instruction, or of an illegal word. -/
theorem stepOpcode_next {s t : State} {opcode : Word} (h : stepOpcode s opcode = .next t) :
    (∃ i, exec i s = .next t) ∨ (∃ w, illegalWord w s = .next t) := by
  unfold stepOpcode at h
  split at h
  · split at h
    · exact .inl ⟨_, h⟩
    · cases h
  · split at h
    · exact .inl ⟨_, h⟩
    · exact .inr ⟨_, h⟩

/-- A next state of the driver's loop is one of the CORE with the opcode fetched. -/
theorem step_next_stepOpcode {s t : State} (h : step s = .next t) : ∃ opcode, stepOpcode s opcode = .next t := by
  unfold step at h
  split at h
  · exact ⟨_, h⟩
  · split at h
    · cases h
    · exact ⟨_, h⟩

/-- Every next state of a step, of the loop or with a supplied opcode: that of an instruction, or of an illegal word. -/
theorem steps_next {s t : State} (h : Steps s t) : (∃ i, exec i s = .next t) ∨ (∃ w, illegalWord w s = .next t) := by
  obtain ⟨_, h⟩ : ∃ opcode, stepOpcode s opcode = .next t := h.elim step_next_stepOpcode id
  exact stepOpcode_next h

/-- In ARM state every answer to an opcode is that of Step(state, opcode) (R16, R95). -/
theorem answers_eq {s : State} {opcode : Word} {r : Result} (ht : s.t = false) (h : Answers s opcode r) : r = stepOpcode s opcode := by
  obtain h | ⟨hf, h⟩ := h
  · exact h
  · simp [h, step, ht, hf]

end Sys2Proof.Machine
end

