-- ==== Sys2Proof/Laws/PerInstr.lean ====
section
/-! SUPPORT. Facts of every instruction as syntax, one lemma a constructor. -/

namespace Sys2Proof.Laws

/-- An instruction encodes to an opcode of its own set's length: 16 bits for THUMB, 32 for ARM (R110). -/
def CodeLength.Statement (i : Instr) : Prop := Machine.Code.inThumb (encode i) = i.isThumb

namespace CodeLength

theorem and (cond : Cond) (sf : Bool) (rn rd : Reg) (op : ShifterOperand) : Statement (.and cond sf rn rd op) := rfl
theorem eor (cond : Cond) (sf : Bool) (rn rd : Reg) (op : ShifterOperand) : Statement (.eor cond sf rn rd op) := rfl
theorem sub (cond : Cond) (sf : Bool) (rn rd : Reg) (op : ShifterOperand) : Statement (.sub cond sf rn rd op) := rfl
theorem rsb (cond : Cond) (sf : Bool) (rn rd : Reg) (op : ShifterOperand) : Statement (.rsb cond sf rn rd op) := rfl
theorem add (cond : Cond) (sf : Bool) (rn rd : Reg) (op : ShifterOperand) : Statement (.add cond sf rn rd op) := rfl
theorem adc (cond : Cond) (sf : Bool) (rn rd : Reg) (op : ShifterOperand) : Statement (.adc cond sf rn rd op) := rfl
theorem sbc (cond : Cond) (sf : Bool) (rn rd : Reg) (op : ShifterOperand) : Statement (.sbc cond sf rn rd op) := rfl
theorem rsc (cond : Cond) (sf : Bool) (rn rd : Reg) (op : ShifterOperand) : Statement (.rsc cond sf rn rd op) := rfl
theorem tst (cond : Cond) (rn sbzRd : Reg) (op : ShifterOperand) : Statement (.tst cond rn sbzRd op) := rfl
theorem teq (cond : Cond) (rn sbzRd : Reg) (op : ShifterOperand) : Statement (.teq cond rn sbzRd op) := rfl
theorem cmp (cond : Cond) (rn sbzRd : Reg) (op : ShifterOperand) : Statement (.cmp cond rn sbzRd op) := rfl
theorem cmn (cond : Cond) (rn sbzRd : Reg) (op : ShifterOperand) : Statement (.cmn cond rn sbzRd op) := rfl
theorem orr (cond : Cond) (sf : Bool) (rn rd : Reg) (op : ShifterOperand) : Statement (.orr cond sf rn rd op) := rfl
theorem mov (cond : Cond) (sf : Bool) (sbzRn rd : Reg) (op : ShifterOperand) : Statement (.mov cond sf sbzRn rd op) := rfl
theorem bic (cond : Cond) (sf : Bool) (rn rd : Reg) (op : ShifterOperand) : Statement (.bic cond sf rn rd op) := rfl
theorem mvn (cond : Cond) (sf : Bool) (sbzRn rd : Reg) (op : ShifterOperand) : Statement (.mvn cond sf sbzRn rd op) := rfl
theorem mul (cond : Cond) (sf : Bool) (rd sbzRn rs rm : Reg) : Statement (.mul cond sf rd sbzRn rs rm) := rfl
theorem mla (cond : Cond) (sf : Bool) (rd rn rs rm : Reg) : Statement (.mla cond sf rd rn rs rm) := rfl
theorem umull (cond : Cond) (sf : Bool) (rdHi rdLo rs rm : Reg) : Statement (.umull cond sf rdHi rdLo rs rm) := rfl
theorem umlal (cond : Cond) (sf : Bool) (rdHi rdLo rs rm : Reg) : Statement (.umlal cond sf rdHi rdLo rs rm) := rfl
theorem smull (cond : Cond) (sf : Bool) (rdHi rdLo rs rm : Reg) : Statement (.smull cond sf rdHi rdLo rs rm) := rfl
theorem smlal (cond : Cond) (sf : Bool) (rdHi rdLo rs rm : Reg) : Statement (.smlal cond sf rdHi rdLo rs rm) := rfl
theorem swp (cond : Cond) (rn rd rm : Reg) : Statement (.swp cond rn rd rm) := rfl
theorem swpb (cond : Cond) (rn rd rm : Reg) : Statement (.swpb cond rn rd rm) := rfl
theorem ldr (cond : Cond) (idx : Index) (up : Bool) (rn rd : Reg) (off : Offset2) : Statement (.ldr cond idx up rn rd off) := rfl
theorem str (cond : Cond) (idx : Index) (up : Bool) (rn rd : Reg) (off : Offset2) : Statement (.str cond idx up rn rd off) := rfl
theorem ldrb (cond : Cond) (idx : Index) (up : Bool) (rn rd : Reg) (off : Offset2) : Statement (.ldrb cond idx up rn rd off) := rfl
theorem strb (cond : Cond) (idx : Index) (up : Bool) (rn rd : Reg) (off : Offset2) : Statement (.strb cond idx up rn rd off) := rfl
theorem ldrt (cond : Cond) (up : Bool) (rn rd : Reg) (off : Offset2) : Statement (.ldrt cond up rn rd off) := rfl
theorem strt (cond : Cond) (up : Bool) (rn rd : Reg) (off : Offset2) : Statement (.strt cond up rn rd off) := rfl
theorem ldrbt (cond : Cond) (up : Bool) (rn rd : Reg) (off : Offset2) : Statement (.ldrbt cond up rn rd off) := rfl
theorem strbt (cond : Cond) (up : Bool) (rn rd : Reg) (off : Offset2) : Statement (.strbt cond up rn rd off) := rfl
theorem ldrh (cond : Cond) (idx : Index) (up : Bool) (rn rd : Reg) (off : Offset3) : Statement (.ldrh cond idx up rn rd off) := rfl
theorem strh (cond : Cond) (idx : Index) (up : Bool) (rn rd : Reg) (off : Offset3) : Statement (.strh cond idx up rn rd off) := rfl
theorem ldrsb (cond : Cond) (idx : Index) (up : Bool) (rn rd : Reg) (off : Offset3) : Statement (.ldrsb cond idx up rn rd off) := rfl
theorem ldrsh (cond : Cond) (idx : Index) (up : Bool) (rn rd : Reg) (off : Offset3) : Statement (.ldrsh cond idx up rn rd off) := rfl
theorem ldmia (cond : Cond) (wb : Bool) (rn : Reg) (list : BitVec 16) : Statement (.ldmia cond wb rn list) := rfl
theorem ldmib (cond : Cond) (wb : Bool) (rn : Reg) (list : BitVec 16) : Statement (.ldmib cond wb rn list) := rfl
theorem ldmda (cond : Cond) (wb : Bool) (rn : Reg) (list : BitVec 16) : Statement (.ldmda cond wb rn list) := rfl
theorem ldmdb (cond : Cond) (wb : Bool) (rn : Reg) (list : BitVec 16) : Statement (.ldmdb cond wb rn list) := rfl
theorem stmia (cond : Cond) (wb : Bool) (rn : Reg) (list : BitVec 16) : Statement (.stmia cond wb rn list) := rfl
theorem stmib (cond : Cond) (wb : Bool) (rn : Reg) (list : BitVec 16) : Statement (.stmib cond wb rn list) := rfl
theorem stmda (cond : Cond) (wb : Bool) (rn : Reg) (list : BitVec 16) : Statement (.stmda cond wb rn list) := rfl
theorem stmdb (cond : Cond) (wb : Bool) (rn : Reg) (list : BitVec 16) : Statement (.stmdb cond wb rn list) := rfl
theorem ldmReturn (cond : Cond) (form : BlockForm) (wb : Bool) (rn : Reg) (list : BitVec 16) : Statement (.ldmReturn cond form wb rn list) := rfl
theorem ldmUser (cond : Cond) (form : BlockForm) (wb : Bool) (rn : Reg) (list : BitVec 16) : Statement (.ldmUser cond form wb rn list) := rfl
theorem stmUser (cond : Cond) (form : BlockForm) (wb : Bool) (rn : Reg) (list : BitVec 16) : Statement (.stmUser cond form wb rn list) := rfl
theorem b (cond : Cond) (imm24 : BitVec 24) : Statement (.b cond imm24) := rfl
theorem bl (cond : Cond) (imm24 : BitVec 24) : Statement (.bl cond imm24) := rfl
theorem bx (cond : Cond) (rm : Reg) : Statement (.bx cond rm) := rfl
theorem mrs (cond : Cond) (spsr : Bool) (rd : Reg) : Statement (.mrs cond spsr rd) := rfl
theorem msrCpsrReg (cond : Cond) (mask : BitVec 4) (rm : Reg) : Statement (.msrCpsrReg cond mask rm) := rfl
theorem msrSpsrReg (cond : Cond) (mask : BitVec 4) (rm : Reg) : Statement (.msrSpsrReg cond mask rm) := rfl
theorem msrCpsrImm (cond : Cond) (mask rot : BitVec 4) (imm8 : BitVec 8) : Statement (.msrCpsrImm cond mask rot imm8) := rfl
theorem msrSpsrImm (cond : Cond) (mask rot : BitVec 4) (imm8 : BitVec 8) : Statement (.msrSpsrImm cond mask rot imm8) := rfl
theorem swi (cond : Cond) (imm24 : BitVec 24) : Statement (.swi cond imm24) := rfl
theorem und (cond : Cond) (hi : BitVec 20) (lo : BitVec 4) : Statement (.und cond hi lo) := rfl
theorem cdp (cond : Cond) (hi : BitVec 19) (lo : BitVec 4) : Statement (.cdp cond hi lo) := rfl
theorem mcr (cond : Cond) (hi : BitVec 3) (mid : BitVec 15) (lo : BitVec 4) : Statement (.mcr cond hi mid lo) := rfl
theorem mrc (cond : Cond) (hi : BitVec 3) (mid : BitVec 15) (lo : BitVec 4) : Statement (.mrc cond hi mid lo) := rfl
theorem stc (cond : Cond) (hi : BitVec 4) (lo : BitVec 20) : Statement (.stc cond hi lo) := rfl
theorem ldc (cond : Cond) (hi : BitVec 4) (lo : BitVec 20) : Statement (.ldc cond hi lo) := rfl
theorem thumbLslImm (offset5 : BitVec 5) (rs rd : LoReg) : Statement (.thumbLslImm offset5 rs rd) := rfl
theorem thumbLsrImm (offset5 : BitVec 5) (rs rd : LoReg) : Statement (.thumbLsrImm offset5 rs rd) := rfl
theorem thumbAsrImm (offset5 : BitVec 5) (rs rd : LoReg) : Statement (.thumbAsrImm offset5 rs rd) := rfl
theorem thumbAddReg (rn rs rd : LoReg) : Statement (.thumbAddReg rn rs rd) := rfl
theorem thumbSubReg (rn rs rd : LoReg) : Statement (.thumbSubReg rn rs rd) := rfl
theorem thumbAddImm3 (imm3 : BitVec 3) (rs rd : LoReg) : Statement (.thumbAddImm3 imm3 rs rd) := rfl
theorem thumbSubImm3 (imm3 : BitVec 3) (rs rd : LoReg) : Statement (.thumbSubImm3 imm3 rs rd) := rfl
theorem thumbMovImm8 (rd : LoReg) (imm8 : BitVec 8) : Statement (.thumbMovImm8 rd imm8) := rfl
theorem thumbCmpImm8 (rd : LoReg) (imm8 : BitVec 8) : Statement (.thumbCmpImm8 rd imm8) := rfl
theorem thumbAddImm8 (rd : LoReg) (imm8 : BitVec 8) : Statement (.thumbAddImm8 rd imm8) := rfl
theorem thumbSubImm8 (rd : LoReg) (imm8 : BitVec 8) : Statement (.thumbSubImm8 rd imm8) := rfl
theorem thumbAndAlu (rs rd : LoReg) : Statement (.thumbAndAlu rs rd) := rfl
theorem thumbEorAlu (rs rd : LoReg) : Statement (.thumbEorAlu rs rd) := rfl
theorem thumbLslAlu (rs rd : LoReg) : Statement (.thumbLslAlu rs rd) := rfl
theorem thumbLsrAlu (rs rd : LoReg) : Statement (.thumbLsrAlu rs rd) := rfl
theorem thumbAsrAlu (rs rd : LoReg) : Statement (.thumbAsrAlu rs rd) := rfl
theorem thumbAdcAlu (rs rd : LoReg) : Statement (.thumbAdcAlu rs rd) := rfl
theorem thumbSbcAlu (rs rd : LoReg) : Statement (.thumbSbcAlu rs rd) := rfl
theorem thumbRorAlu (rs rd : LoReg) : Statement (.thumbRorAlu rs rd) := rfl
theorem thumbTstAlu (rs rd : LoReg) : Statement (.thumbTstAlu rs rd) := rfl
theorem thumbNegAlu (rs rd : LoReg) : Statement (.thumbNegAlu rs rd) := rfl
theorem thumbCmpAlu (rs rd : LoReg) : Statement (.thumbCmpAlu rs rd) := rfl
theorem thumbCmnAlu (rs rd : LoReg) : Statement (.thumbCmnAlu rs rd) := rfl
theorem thumbOrrAlu (rs rd : LoReg) : Statement (.thumbOrrAlu rs rd) := rfl
theorem thumbMulAlu (rs rd : LoReg) : Statement (.thumbMulAlu rs rd) := rfl
theorem thumbBicAlu (rs rd : LoReg) : Statement (.thumbBicAlu rs rd) := rfl
theorem thumbMvnAlu (rs rd : LoReg) : Statement (.thumbMvnAlu rs rd) := rfl
theorem thumbAddHi (h1 h2 : Bool) (rs rd : LoReg) : Statement (.thumbAddHi h1 h2 rs rd) := rfl
theorem thumbCmpHi (h1 h2 : Bool) (rs rd : LoReg) : Statement (.thumbCmpHi h1 h2 rs rd) := rfl
theorem thumbMovHi (h1 h2 : Bool) (rs rd : LoReg) : Statement (.thumbMovHi h1 h2 rs rd) := rfl
theorem thumbBx (h1 h2 : Bool) (rs rd : LoReg) : Statement (.thumbBx h1 h2 rs rd) := rfl
theorem thumbLdrPc (rd : LoReg) (word8 : BitVec 8) : Statement (.thumbLdrPc rd word8) := rfl
theorem thumbStrRegOff (ro rb rd : LoReg) : Statement (.thumbStrRegOff ro rb rd) := rfl
theorem thumbStrbRegOff (ro rb rd : LoReg) : Statement (.thumbStrbRegOff ro rb rd) := rfl
theorem thumbLdrRegOff (ro rb rd : LoReg) : Statement (.thumbLdrRegOff ro rb rd) := rfl
theorem thumbLdrbRegOff (ro rb rd : LoReg) : Statement (.thumbLdrbRegOff ro rb rd) := rfl
theorem thumbStrhRegOff (ro rb rd : LoReg) : Statement (.thumbStrhRegOff ro rb rd) := rfl
theorem thumbLdsbRegOff (ro rb rd : LoReg) : Statement (.thumbLdsbRegOff ro rb rd) := rfl
theorem thumbLdrhRegOff (ro rb rd : LoReg) : Statement (.thumbLdrhRegOff ro rb rd) := rfl
theorem thumbLdshRegOff (ro rb rd : LoReg) : Statement (.thumbLdshRegOff ro rb rd) := rfl
theorem thumbStrImmOff (offset5 : BitVec 5) (rb rd : LoReg) : Statement (.thumbStrImmOff offset5 rb rd) := rfl
theorem thumbLdrImmOff (offset5 : BitVec 5) (rb rd : LoReg) : Statement (.thumbLdrImmOff offset5 rb rd) := rfl
theorem thumbStrbImmOff (offset5 : BitVec 5) (rb rd : LoReg) : Statement (.thumbStrbImmOff offset5 rb rd) := rfl
theorem thumbLdrbImmOff (offset5 : BitVec 5) (rb rd : LoReg) : Statement (.thumbLdrbImmOff offset5 rb rd) := rfl
theorem thumbStrhImmOff (offset5 : BitVec 5) (rb rd : LoReg) : Statement (.thumbStrhImmOff offset5 rb rd) := rfl
theorem thumbLdrhImmOff (offset5 : BitVec 5) (rb rd : LoReg) : Statement (.thumbLdrhImmOff offset5 rb rd) := rfl
theorem thumbStrSp (rd : LoReg) (word8 : BitVec 8) : Statement (.thumbStrSp rd word8) := rfl
theorem thumbLdrSp (rd : LoReg) (word8 : BitVec 8) : Statement (.thumbLdrSp rd word8) := rfl
theorem thumbAddPc (rd : LoReg) (word8 : BitVec 8) : Statement (.thumbAddPc rd word8) := rfl
theorem thumbAddSp (rd : LoReg) (word8 : BitVec 8) : Statement (.thumbAddSp rd word8) := rfl
theorem thumbSpPlus (sword7 : BitVec 7) : Statement (.thumbSpPlus sword7) := rfl
theorem thumbSpMinus (sword7 : BitVec 7) : Statement (.thumbSpMinus sword7) := rfl
theorem thumbPush (r : Bool) (rlist : BitVec 8) : Statement (.thumbPush r rlist) := rfl
theorem thumbPop (r : Bool) (rlist : BitVec 8) : Statement (.thumbPop r rlist) := rfl
theorem thumbStmia (rb : LoReg) (rlist : BitVec 8) : Statement (.thumbStmia rb rlist) := rfl
theorem thumbLdmia (rb : LoReg) (rlist : BitVec 8) : Statement (.thumbLdmia rb rlist) := rfl
theorem thumbBCond (cond : BitVec 4) (soffset8 : BitVec 8) : Statement (.thumbBCond cond soffset8) := rfl
theorem thumbSwi (value8 : BitVec 8) : Statement (.thumbSwi value8) := rfl
theorem thumbUnd (value8 : BitVec 8) : Statement (.thumbUnd value8) := rfl
theorem thumbB (offset11 : BitVec 11) : Statement (.thumbB offset11) := rfl
theorem thumbBlHigh (offset11 : BitVec 11) : Statement (.thumbBlHigh offset11) := rfl
theorem thumbBlLow (offset11 : BitVec 11) : Statement (.thumbBlLow offset11) := rfl

end CodeLength

/-- Every instruction encodes to an opcode of its own set's length. -/
theorem codeLength (i : Instr) : Machine.Code.inThumb (encode i) = i.isThumb := by cases i <;> rfl

end Sys2Proof.Laws
end

