-- ==== Sys2Proof/Machine/Assembly.lean ====
section
/-! DEFINITION. The assembler text of the ARM instructions (R160, R161), the stack aliases of the block transfers (R161), and the
pseudo-instructions with their expansions (R162). No step depends on it. -/

namespace Sys2Proof.Machine

/-! ## Text -/

/-- The condition suffix: the mnemonic of R171, omitted for AL (R160). The reserved code 1111 has none; it prints as NV. -/
def condText : Cond → String
  | .eq => "EQ" | .ne => "NE" | .cs => "CS" | .cc => "CC" | .mi => "MI" | .pl => "PL" | .vs => "VS" | .vc => "VC"
  | .hi => "HI" | .ls => "LS" | .ge => "GE" | .lt => "LT" | .gt => "GT" | .le => "LE" | .al => "" | .nv => "NV"

/-- The name of a register (R160). -/
def regText (r : Reg) : String :=
  if r = 13 then "SP" else if r = 14 then "LR" else if r = 15 then "PC" else "r" ++ toString r.val

/-- An immediate. -/
def immText (n : Nat) : String := "#" ++ toString n

/-- A shift mnemonic (R160). -/
def shiftText : ShiftType → String
  | .lsl => "LSL" | .lsr => "LSR" | .asr => "ASR" | .ror => "ROR"

/-- A register shifted by an immediate: LSL #0 is the plain register, ROR #0 is RRX, LSR #0 and ASR #0 shift by 32 (R192 to R196,
R202). -/
def shiftedText (rm : Reg) (ty : ShiftType) (amount : BitVec 5) : String :=
  match ty with
  | .lsl => if amount = 0 then regText rm else regText rm ++ ", LSL " ++ immText amount.toNat
  | .ror => if amount = 0 then regText rm ++ ", RRX" else regText rm ++ ", ROR " ++ immText amount.toNat
  | .lsr => regText rm ++ ", LSR " ++ immText (if amount = 0 then 32 else amount.toNat)
  | .asr => regText rm ++ ", ASR " ++ immText (if amount = 0 then 32 else amount.toNat)

/-- A shifter operand (R160). -/
def operandText : ShifterOperand → String
  | .imm rot imm8 => immText (shiftImmediate rot imm8 false).value.toNat
  | .immShift amount ty rm => shiftedText rm ty amount
  | .regShift rs ty rm => regText rm ++ ", " ++ shiftText ty ++ " " ++ regText rs

/-- `S` where the flags are set. -/
def sText (sf : Bool) : String := if sf then "S" else ""

/-- A minus sign where the offset is subtracted. -/
def signText (up : Bool) : String := if up then "" else "-"

/-- A mode-2 offset (R161). -/
def offset2Text (up : Bool) : Offset2 → String
  | .imm o => "#" ++ signText up ++ toString o.toNat
  | .reg amount ty rm => signText up ++ shiftedText rm ty amount

/-- A mode-3 offset (R161). -/
def offset3Text (up : Bool) : Offset3 → String
  | .imm o => "#" ++ signText up ++ toString o.toNat
  | .reg rm => signText up ++ regText rm

/-- An address: offset, pre-indexed or post-indexed form (R161). -/
def addressText (idx : Index) (rn : Reg) (off : String) : String :=
  match idx with
  | .offset => "[" ++ regText rn ++ ", " ++ off ++ "]"
  | .pre => "[" ++ regText rn ++ ", " ++ off ++ "]!"
  | .post | .postW => "[" ++ regText rn ++ "], " ++ off

/-- Texts separated by commas. -/
def commas : List String → String
  | [] => ""
  | [x] => x
  | x :: y :: rest => x ++ ", " ++ commas (y :: rest)

/-- A register list between braces (R161). -/
def listText (list : BitVec 16) : String :=
  String.singleton (Char.ofNat 123) ++ commas ((regsOf list).map regText) ++ String.singleton (Char.ofNat 125)

/-- The mode suffix of a block transfer (R161). -/
def formText : BlockForm → String
  | .ia => "IA" | .ib => "IB" | .da => "DA" | .db => "DB"

/-- The field letters of MSR (R161, R392). -/
def fieldsText (mask : BitVec 4) : String :=
  (if mask.getLsbD 3 then "f" else "") ++ (if mask.getLsbD 2 then "s" else "") ++ (if mask.getLsbD 1 then "x" else "")
    ++ (if mask.getLsbD 0 then "c" else "")

/-- `<op><cond>S Rd, Rn, <operand>` (R160). -/
def dataText (op : String) (c : Cond) (sf : Bool) (rn rd : Reg) (o : ShifterOperand) : String :=
  op ++ condText c ++ sText sf ++ " " ++ regText rd ++ ", " ++ regText rn ++ ", " ++ operandText o

/-- MOV and MVN take no Rn (R160). -/
def moveText (op : String) (c : Cond) (sf : Bool) (rd : Reg) (o : ShifterOperand) : String :=
  op ++ condText c ++ sText sf ++ " " ++ regText rd ++ ", " ++ operandText o

/-- The test opcodes take no S and no Rd (R160). -/
def testText (op : String) (c : Cond) (rn : Reg) (o : ShifterOperand) : String :=
  op ++ condText c ++ " " ++ regText rn ++ ", " ++ operandText o

/-- A single transfer (R161): the suffix follows the condition. -/
def transferText (op : String) (c : Cond) (suffix : String) (rd : Reg) (addr : String) : String :=
  op ++ condText c ++ suffix ++ " " ++ regText rd ++ ", " ++ addr

/-- A block transfer (R161). -/
def blockText (op : String) (c : Cond) (form : BlockForm) (wb : Bool) (rn : Reg) (list : BitVec 16) (caret : Bool) : String :=
  op ++ condText c ++ formText form ++ " " ++ regText rn ++ (if wb then "!" else "") ++ ", " ++ listText list
    ++ (if caret then "^" else "")

/-- A multiply with its registers in the order of R161. -/
def multiplyText (op : String) (c : Cond) (sf : Bool) (rs : List Reg) : String :=
  op ++ condText c ++ sText sf ++ " " ++ commas (rs.map regText)

/-- The label of a branch: its target's address, from the PC read value (R310). -/
def labelText (pcRead : Word) (imm24 : BitVec 24) : String := toString (pcRead + (imm24.signExtend 32 <<< 2)).toNat

/-- The text of an instruction read at a PC read value (R160, R161). None where the spec gives no text: THUMB, and the rows that
classify as Undefined. -/
def asmText (pcRead : Word) : Instr → Option String
  | .and c sf rn rd o => some (dataText "AND" c sf rn rd o)
  | .eor c sf rn rd o => some (dataText "EOR" c sf rn rd o)
  | .sub c sf rn rd o => some (dataText "SUB" c sf rn rd o)
  | .rsb c sf rn rd o => some (dataText "RSB" c sf rn rd o)
  | .add c sf rn rd o => some (dataText "ADD" c sf rn rd o)
  | .adc c sf rn rd o => some (dataText "ADC" c sf rn rd o)
  | .sbc c sf rn rd o => some (dataText "SBC" c sf rn rd o)
  | .rsc c sf rn rd o => some (dataText "RSC" c sf rn rd o)
  | .tst c rn _ o => some (testText "TST" c rn o)
  | .teq c rn _ o => some (testText "TEQ" c rn o)
  | .cmp c rn _ o => some (testText "CMP" c rn o)
  | .cmn c rn _ o => some (testText "CMN" c rn o)
  | .orr c sf rn rd o => some (dataText "ORR" c sf rn rd o)
  | .mov c sf _ rd o => some (moveText "MOV" c sf rd o)
  | .bic c sf rn rd o => some (dataText "BIC" c sf rn rd o)
  | .mvn c sf _ rd o => some (moveText "MVN" c sf rd o)
  | .mul c sf rd _ rs rm => some (multiplyText "MUL" c sf [rd, rm, rs])
  | .mla c sf rd rn rs rm => some (multiplyText "MLA" c sf [rd, rm, rs, rn])
  | .umull c sf rdHi rdLo rs rm => some (multiplyText "UMULL" c sf [rdLo, rdHi, rm, rs])
  | .umlal c sf rdHi rdLo rs rm => some (multiplyText "UMLAL" c sf [rdLo, rdHi, rm, rs])
  | .smull c sf rdHi rdLo rs rm => some (multiplyText "SMULL" c sf [rdLo, rdHi, rm, rs])
  | .smlal c sf rdHi rdLo rs rm => some (multiplyText "SMLAL" c sf [rdLo, rdHi, rm, rs])
  | .swp c rn rd rm => some (transferText "SWP" c "" rd (regText rm ++ ", [" ++ regText rn ++ "]"))
  | .swpb c rn rd rm => some (transferText "SWP" c "B" rd (regText rm ++ ", [" ++ regText rn ++ "]"))
  | .ldr c idx up rn rd off => some (transferText "LDR" c "" rd (addressText idx rn (offset2Text up off)))
  | .str c idx up rn rd off => some (transferText "STR" c "" rd (addressText idx rn (offset2Text up off)))
  | .ldrb c idx up rn rd off => some (transferText "LDR" c "B" rd (addressText idx rn (offset2Text up off)))
  | .strb c idx up rn rd off => some (transferText "STR" c "B" rd (addressText idx rn (offset2Text up off)))
  | .ldrt c up rn rd off => some (transferText "LDR" c "T" rd (addressText .postW rn (offset2Text up off)))
  | .strt c up rn rd off => some (transferText "STR" c "T" rd (addressText .postW rn (offset2Text up off)))
  | .ldrbt c up rn rd off => some (transferText "LDR" c "BT" rd (addressText .postW rn (offset2Text up off)))
  | .strbt c up rn rd off => some (transferText "STR" c "BT" rd (addressText .postW rn (offset2Text up off)))
  | .ldrh c idx up rn rd off => some (transferText "LDR" c "H" rd (addressText idx rn (offset3Text up off)))
  | .strh c idx up rn rd off => some (transferText "STR" c "H" rd (addressText idx rn (offset3Text up off)))
  | .ldrsb c idx up rn rd off => some (transferText "LDR" c "SB" rd (addressText idx rn (offset3Text up off)))
  | .ldrsh c idx up rn rd off => some (transferText "LDR" c "SH" rd (addressText idx rn (offset3Text up off)))
  | .ldmia c wb rn list => some (blockText "LDM" c .ia wb rn list false)
  | .ldmib c wb rn list => some (blockText "LDM" c .ib wb rn list false)
  | .ldmda c wb rn list => some (blockText "LDM" c .da wb rn list false)
  | .ldmdb c wb rn list => some (blockText "LDM" c .db wb rn list false)
  | .stmia c wb rn list => some (blockText "STM" c .ia wb rn list false)
  | .stmib c wb rn list => some (blockText "STM" c .ib wb rn list false)
  | .stmda c wb rn list => some (blockText "STM" c .da wb rn list false)
  | .stmdb c wb rn list => some (blockText "STM" c .db wb rn list false)
  | .ldmReturn c form wb rn list => some (blockText "LDM" c form wb rn list true)
  | .ldmUser c form wb rn list => some (blockText "LDM" c form wb rn list true)
  | .stmUser c form wb rn list => some (blockText "STM" c form wb rn list true)
  | .b c imm24 => some ("B" ++ condText c ++ " " ++ labelText pcRead imm24)
  | .bl c imm24 => some ("BL" ++ condText c ++ " " ++ labelText pcRead imm24)
  | .bx c rm => some ("BX" ++ condText c ++ " " ++ regText rm)
  | .mrs c spsr rd => some ("MRS" ++ condText c ++ " " ++ regText rd ++ ", " ++ (if spsr then "SPSR" else "CPSR"))
  | .msrCpsrReg c mask rm => some ("MSR" ++ condText c ++ " CPSR_" ++ fieldsText mask ++ ", " ++ regText rm)
  | .msrSpsrReg c mask rm => some ("MSR" ++ condText c ++ " SPSR_" ++ fieldsText mask ++ ", " ++ regText rm)
  | .msrCpsrImm c mask rot imm8 =>
    some ("MSR" ++ condText c ++ " CPSR_" ++ fieldsText mask ++ ", " ++ operandText (.imm rot imm8))
  | .msrSpsrImm c mask rot imm8 =>
    some ("MSR" ++ condText c ++ " SPSR_" ++ fieldsText mask ++ ", " ++ operandText (.imm rot imm8))
  | .swi c imm24 => some ("SWI" ++ condText c ++ " " ++ toString imm24.toNat)
  | _ => none

/-! ## Stack aliases -/

/-- The stack aliases of the block transfers (R161). -/
inductive StackAlias where
  | fd | ed | fa | ea
  deriving DecidableEq, Repr

/-- The form an alias names for LDM (R161). -/
def StackAlias.ldmForm : StackAlias → BlockForm
  | .fd => .ia
  | .ed => .ib
  | .fa => .da
  | .ea => .db

/-- The form an alias names for STM (R161). -/
def StackAlias.stmForm : StackAlias → BlockForm
  | .ea => .ia
  | .fa => .ib
  | .ed => .da
  | .fd => .db

/-! ## Pseudo-instructions -/

/-- The sixteen rotations, the smallest first. -/
def rotations : List (BitVec 4) := [0, 1, 2, 3, 4, 5, 6, 7, 8, 9, 10, 11, 12, 13, 14, 15]

/-- A value as an encodable immediate: an 8-bit value rotated right by an even amount (R160), with the smallest rotation. -/
def immediateOf (v : Word) : Option ShifterOperand :=
  match rotations.find? (fun rot => decide ((v.rotateLeft (2 * rot.toNat)).toNat < 256)) with
  | some rot => some (.imm rot (fieldAt (v.rotateLeft (2 * rot.toNat)) 0 8))
  | none => none

/-- NOP (R162). -/
def pseudoNop : Instr := .mov .al false 0 0 (.immShift 0 .lsl 0)

/-- ADR Rd, label: ADD or SUB from the PC read value (R162). None where neither offset is an encodable immediate. -/
def pseudoAdr (cond : Cond) (rd : Reg) (label pcRead : Word) : Option Instr :=
  match immediateOf (label - pcRead) with
  | some o => some (.add cond false 15 rd o)
  | none =>
    match immediateOf (pcRead - label) with
    | some o => some (.sub cond false 15 rd o)
    | none => none

/-- LDR Rd, =const: MOV, MVN, or a load from a literal pool entry that holds the constant (R162). None where the entry is out of
the 12-bit offset's range. -/
def pseudoLdrConst (cond : Cond) (rd : Reg) (const pool pcRead : Word) : Option Instr :=
  match immediateOf const with
  | some o => some (.mov cond false 0 rd o)
  | none =>
    match immediateOf (~~~const) with
    | some o => some (.mvn cond false 0 rd o)
    | none =>
      if (pool - pcRead).toNat < 4096 then some (.ldr cond .offset true 15 rd (.imm (fieldAt (pool - pcRead) 0 12)))
      else if (pcRead - pool).toNat < 4096 then some (.ldr cond .offset false 15 rd (.imm (fieldAt (pcRead - pool) 0 12)))
      else none

/-- PUSH (R162). -/
def pseudoPush (cond : Cond) (list : BitVec 16) : Instr := .stmdb cond true 13 list

/-- POP (R162). -/
def pseudoPop (cond : Cond) (list : BitVec 16) : Instr := .ldmia cond true 13 list

end Sys2Proof.Machine
end

