-- ==== Sys2Proof/Tests/Slice0.lean ====
section
/-! SUPPORT. The model's own tests: what WellFormed refuses, the decoding of words written out from the spec's formats, single steps whose
results are rows of 95_test_vectors.md or follow from a named rule, and a witness for the hypotheses of every statement. -/

namespace Sys2Proof.Tests
open Sys2Proof.Machine

/-! ## WellFormed: a term each check refuses -/

theorem test_wf_ldr : ¬ (Instr.ldr .al .postW true 1 0 (.imm 4)).WellFormed := by decide
theorem test_wf_str : ¬ (Instr.str .al .postW true 1 0 (.imm 4)).WellFormed := by decide
theorem test_wf_ldrb : ¬ (Instr.ldrb .al .postW true 1 0 (.imm 4)).WellFormed := by decide
theorem test_wf_strb : ¬ (Instr.strb .al .postW true 1 0 (.imm 4)).WellFormed := by decide
theorem test_wf_ldmReturn : ¬ (Instr.ldmReturn .al .ia true 13 0x0001).WellFormed := by decide
theorem test_wf_ldmUser : ¬ (Instr.ldmUser .al .ia false 0 0x8000).WellFormed := by decide
theorem test_wf_thumbBCond_undefined : ¬ (Instr.thumbBCond 0xE 0).WellFormed := by decide
theorem test_wf_thumbBCond_swi : ¬ (Instr.thumbBCond 0xF 0).WellFormed := by decide
theorem test_wf_accepts : (Instr.ldr .al .post true 1 0 (.imm 4)).WellFormed ∧ (Instr.thumbBCond 0xD 0).WellFormed := by decide

/-! ## Decoding: one word for every row, its fields written out high bit first from R112 to R125 -/

/-- R112 to R114: cond NE, I = 0, the opcode, S = 1, Rn = r1, Rd = r2, r4 shifted by ASR #5 -/
theorem test_decode_results :
    decodeArm 0b0001_00_0_0000_1_0001_0010_00101_10_0_0100 = .ok (.and .ne true 1 2 (.immShift 5 .asr 4))
      ∧ decodeArm 0b0001_00_0_0001_1_0001_0010_00101_10_0_0100 = .ok (.eor .ne true 1 2 (.immShift 5 .asr 4))
      ∧ decodeArm 0b0001_00_0_0010_1_0001_0010_00101_10_0_0100 = .ok (.sub .ne true 1 2 (.immShift 5 .asr 4))
      ∧ decodeArm 0b0001_00_0_0011_1_0001_0010_00101_10_0_0100 = .ok (.rsb .ne true 1 2 (.immShift 5 .asr 4))
      ∧ decodeArm 0b0001_00_0_0100_1_0001_0010_00101_10_0_0100 = .ok (.add .ne true 1 2 (.immShift 5 .asr 4))
      ∧ decodeArm 0b0001_00_0_0101_1_0001_0010_00101_10_0_0100 = .ok (.adc .ne true 1 2 (.immShift 5 .asr 4))
      ∧ decodeArm 0b0001_00_0_0110_1_0001_0010_00101_10_0_0100 = .ok (.sbc .ne true 1 2 (.immShift 5 .asr 4))
      ∧ decodeArm 0b0001_00_0_0111_1_0001_0010_00101_10_0_0100 = .ok (.rsc .ne true 1 2 (.immShift 5 .asr 4))
      ∧ decodeArm 0b0001_00_0_1100_1_0001_0010_00101_10_0_0100 = .ok (.orr .ne true 1 2 (.immShift 5 .asr 4))
      ∧ decodeArm 0b0001_00_0_1101_1_0001_0010_00101_10_0_0100 = .ok (.mov .ne true 1 2 (.immShift 5 .asr 4))
      ∧ decodeArm 0b0001_00_0_1110_1_0001_0010_00101_10_0_0100 = .ok (.bic .ne true 1 2 (.immShift 5 .asr 4))
      ∧ decodeArm 0b0001_00_0_1111_1_0001_0010_00101_10_0_0100 = .ok (.mvn .ne true 1 2 (.immShift 5 .asr 4)) :=
  ⟨rfl, rfl, rfl, rfl, rfl, rfl, rfl, rfl, rfl, rfl, rfl, rfl⟩

/-- R112 to R114: cond AL, I = 1, the opcode, S = 1, Rn = r1, Rd = 0000, rotate_imm 3, imm8 0xFE -/
theorem test_decode_tests :
    decodeArm 0b1110_00_1_1000_1_0001_0000_0011_11111110 = .ok (.tst .al 1 0 (.imm 3 0xFE))
      ∧ decodeArm 0b1110_00_1_1001_1_0001_0000_0011_11111110 = .ok (.teq .al 1 0 (.imm 3 0xFE))
      ∧ decodeArm 0b1110_00_1_1010_1_0001_0000_0011_11111110 = .ok (.cmp .al 1 0 (.imm 3 0xFE))
      ∧ decodeArm 0b1110_00_1_1011_1_0001_0000_0011_11111110 = .ok (.cmn .al 1 0 (.imm 3 0xFE)) :=
  ⟨rfl, rfl, rfl, rfl⟩

/-- R114: Rs = r3, bit 7 = 0, the shift type, bit 4 = 1, Rm = r4 -/
theorem test_decode_register_shift :
    decodeArm 0b1110_00_0_0100_0_0001_0010_0011_0_00_1_0100 = .ok (.add .al false 1 2 (.regShift 3 .lsl 4))
      ∧ decodeArm 0b1110_00_0_0100_0_0001_0010_0011_0_01_1_0100 = .ok (.add .al false 1 2 (.regShift 3 .lsr 4))
      ∧ decodeArm 0b1110_00_0_0100_0_0001_0010_0011_0_10_1_0100 = .ok (.add .al false 1 2 (.regShift 3 .asr 4))
      ∧ decodeArm 0b1110_00_0_0100_0_0001_0010_0011_0_11_1_0100 = .ok (.add .al false 1 2 (.regShift 3 .ror 4)) :=
  ⟨rfl, rfl, rfl, rfl⟩

/-- R116: bits 27:23, 22 and A, S = 1, then 0001, 0010, Rs = r3, 1001, Rm = r4 -/
theorem test_decode_multiply :
    decodeArm 0b1110_00000_0_0_1_0001_0010_0011_1001_0100 = .ok (.mul .al true 1 2 3 4)
      ∧ decodeArm 0b1110_00000_0_1_1_0001_0010_0011_1001_0100 = .ok (.mla .al true 1 2 3 4)
      ∧ decodeArm 0b1110_00001_0_0_1_0001_0010_0011_1001_0100 = .ok (.umull .al true 1 2 3 4)
      ∧ decodeArm 0b1110_00001_0_1_1_0001_0010_0011_1001_0100 = .ok (.umlal .al true 1 2 3 4)
      ∧ decodeArm 0b1110_00001_1_0_1_0001_0010_0011_1001_0100 = .ok (.smull .al true 1 2 3 4)
      ∧ decodeArm 0b1110_00001_1_1_1_0001_0010_0011_1001_0100 = .ok (.smlal .al true 1 2 3 4) :=
  ⟨rfl, rfl, rfl, rfl, rfl, rfl⟩

/-- R117: bit 22 is B, Rn = r1, Rd = r2, 0000, 1001, Rm = r4 -/
theorem test_decode_swap :
    decodeArm 0b1110_00010_0_00_0001_0010_0000_1001_0100 = .ok (.swp .al 1 2 4)
      ∧ decodeArm 0b1110_00010_1_00_0001_0010_0000_1001_0100 = .ok (.swpb .al 1 2 4) :=
  ⟨rfl, rfl⟩

/-- R119: I, P, U, B, W, L, Rn = r1, Rd = r2, the offset; P = 0 and W = 1 is the T form -/
theorem test_decode_single :
    decodeArm 0b1110_01_0_1_0_0_0_1_0001_0010_100000000001 = .ok (.ldr .al .offset false 1 2 (.imm 0x801))
      ∧ decodeArm 0b1110_01_1_1_1_0_1_1_0001_0010_00101_01_0_0100 = .ok (.ldr .al .pre true 1 2 (.reg 5 .lsr 4))
      ∧ decodeArm 0b1110_01_0_0_1_0_0_1_0001_0010_000000000100 = .ok (.ldr .al .post true 1 2 (.imm 4))
      ∧ decodeArm 0b1110_01_0_0_1_0_1_1_0001_0010_000000000100 = .ok (.ldrt .al true 1 2 (.imm 4))
      ∧ decodeArm 0b1110_01_0_1_0_0_0_0_0001_0010_100000000001 = .ok (.str .al .offset false 1 2 (.imm 0x801))
      ∧ decodeArm 0b1110_01_1_1_1_0_1_0_0001_0010_00101_01_0_0100 = .ok (.str .al .pre true 1 2 (.reg 5 .lsr 4))
      ∧ decodeArm 0b1110_01_0_0_1_0_0_0_0001_0010_000000000100 = .ok (.str .al .post true 1 2 (.imm 4))
      ∧ decodeArm 0b1110_01_0_0_1_0_1_0_0001_0010_000000000100 = .ok (.strt .al true 1 2 (.imm 4))
      ∧ decodeArm 0b1110_01_0_1_0_1_0_1_0001_0010_100000000001 = .ok (.ldrb .al .offset false 1 2 (.imm 0x801))
      ∧ decodeArm 0b1110_01_1_1_1_1_1_1_0001_0010_00101_01_0_0100 = .ok (.ldrb .al .pre true 1 2 (.reg 5 .lsr 4))
      ∧ decodeArm 0b1110_01_0_0_1_1_0_1_0001_0010_000000000100 = .ok (.ldrb .al .post true 1 2 (.imm 4))
      ∧ decodeArm 0b1110_01_0_0_1_1_1_1_0001_0010_000000000100 = .ok (.ldrbt .al true 1 2 (.imm 4))
      ∧ decodeArm 0b1110_01_0_1_0_1_0_0_0001_0010_100000000001 = .ok (.strb .al .offset false 1 2 (.imm 0x801))
      ∧ decodeArm 0b1110_01_1_1_1_1_1_0_0001_0010_00101_01_0_0100 = .ok (.strb .al .pre true 1 2 (.reg 5 .lsr 4))
      ∧ decodeArm 0b1110_01_0_0_1_1_0_0_0001_0010_000000000100 = .ok (.strb .al .post true 1 2 (.imm 4))
      ∧ decodeArm 0b1110_01_0_0_1_1_1_0_0001_0010_000000000100 = .ok (.strbt .al true 1 2 (.imm 4)) :=
  ⟨rfl, rfl, rfl, rfl, rfl, rfl, rfl, rfl, rfl, rfl, rfl, rfl, rfl, rfl, rfl, rfl⟩

/-- R118: P, U, I, W, L, Rn = r1, Rd = r2, high nibble, 1, SH, 1, low nibble or Rm -/
theorem test_decode_halfword :
    decodeArm 0b1110_000_1_0_1_0_1_0001_0010_1010_1_01_1_0101 = .ok (.ldrh .al .offset false 1 2 (.imm 0xA5))
      ∧ decodeArm 0b1110_000_1_1_0_1_1_0001_0010_0000_1_01_1_0100 = .ok (.ldrh .al .pre true 1 2 (.reg 4))
      ∧ decodeArm 0b1110_000_0_1_1_1_1_0001_0010_0000_1_01_1_0010 = .ok (.ldrh .al .postW true 1 2 (.imm 2))
      ∧ decodeArm 0b1110_000_1_0_1_0_0_0001_0010_1010_1_01_1_0101 = .ok (.strh .al .offset false 1 2 (.imm 0xA5))
      ∧ decodeArm 0b1110_000_1_1_0_1_0_0001_0010_0000_1_01_1_0100 = .ok (.strh .al .pre true 1 2 (.reg 4))
      ∧ decodeArm 0b1110_000_0_1_1_1_0_0001_0010_0000_1_01_1_0010 = .ok (.strh .al .postW true 1 2 (.imm 2))
      ∧ decodeArm 0b1110_000_1_0_1_0_1_0001_0010_1010_1_10_1_0101 = .ok (.ldrsb .al .offset false 1 2 (.imm 0xA5))
      ∧ decodeArm 0b1110_000_1_1_0_1_1_0001_0010_0000_1_10_1_0100 = .ok (.ldrsb .al .pre true 1 2 (.reg 4))
      ∧ decodeArm 0b1110_000_0_1_1_1_1_0001_0010_0000_1_10_1_0010 = .ok (.ldrsb .al .postW true 1 2 (.imm 2))
      ∧ decodeArm 0b1110_000_1_0_1_0_1_0001_0010_1010_1_11_1_0101 = .ok (.ldrsh .al .offset false 1 2 (.imm 0xA5))
      ∧ decodeArm 0b1110_000_1_1_0_1_1_0001_0010_0000_1_11_1_0100 = .ok (.ldrsh .al .pre true 1 2 (.reg 4))
      ∧ decodeArm 0b1110_000_0_1_1_1_1_0001_0010_0000_1_11_1_0010 = .ok (.ldrsh .al .postW true 1 2 (.imm 2)) :=
  ⟨rfl, rfl, rfl, rfl, rfl, rfl, rfl, rfl, rfl, rfl, rfl, rfl⟩

/-- R121: P, U, S, W, L, Rn = r1, the register list -/
theorem test_decode_block :
    decodeArm 0b1110_100_0_0_0_1_1_0001_1000000000010100 = .ok (.ldmda .al true 1 0x8014)
      ∧ decodeArm 0b1110_100_0_1_0_1_1_0001_1000000000010100 = .ok (.ldmia .al true 1 0x8014)
      ∧ decodeArm 0b1110_100_1_0_0_1_1_0001_1000000000010100 = .ok (.ldmdb .al true 1 0x8014)
      ∧ decodeArm 0b1110_100_1_1_0_1_1_0001_1000000000010100 = .ok (.ldmib .al true 1 0x8014)
      ∧ decodeArm 0b1110_100_0_0_0_1_0_0001_1000000000010100 = .ok (.stmda .al true 1 0x8014)
      ∧ decodeArm 0b1110_100_0_1_0_1_0_0001_1000000000010100 = .ok (.stmia .al true 1 0x8014)
      ∧ decodeArm 0b1110_100_1_0_0_1_0_0001_1000000000010100 = .ok (.stmdb .al true 1 0x8014)
      ∧ decodeArm 0b1110_100_1_1_0_1_0_0001_1000000000010100 = .ok (.stmib .al true 1 0x8014)
      ∧ decodeArm 0b1110_100_0_0_1_1_1_0001_1000000000010100 = .ok (.ldmReturn .al .da true 1 0x8014)
      ∧ decodeArm 0b1110_100_0_1_1_1_1_0001_1000000000010100 = .ok (.ldmReturn .al .ia true 1 0x8014)
      ∧ decodeArm 0b1110_100_1_0_1_1_1_0001_1000000000010100 = .ok (.ldmReturn .al .db true 1 0x8014)
      ∧ decodeArm 0b1110_100_1_1_1_1_1_0001_1000000000010100 = .ok (.ldmReturn .al .ib true 1 0x8014)
      ∧ decodeArm 0b1110_100_0_0_1_0_1_0001_0000000000010100 = .ok (.ldmUser .al .da false 1 0x0014)
      ∧ decodeArm 0b1110_100_0_1_1_0_1_0001_0000000000010100 = .ok (.ldmUser .al .ia false 1 0x0014)
      ∧ decodeArm 0b1110_100_1_0_1_0_1_0001_0000000000010100 = .ok (.ldmUser .al .db false 1 0x0014)
      ∧ decodeArm 0b1110_100_1_1_1_0_1_0001_0000000000010100 = .ok (.ldmUser .al .ib false 1 0x0014)
      ∧ decodeArm 0b1110_100_0_0_1_0_0_0001_1000000000010100 = .ok (.stmUser .al .da false 1 0x8014)
      ∧ decodeArm 0b1110_100_0_1_1_0_0_0001_1000000000010100 = .ok (.stmUser .al .ia false 1 0x8014)
      ∧ decodeArm 0b1110_100_1_0_1_0_0_0001_1000000000010100 = .ok (.stmUser .al .db false 1 0x8014)
      ∧ decodeArm 0b1110_100_1_1_1_0_0_0001_1000000000010100 = .ok (.stmUser .al .ib false 1 0x8014) :=
  ⟨rfl, rfl, rfl, rfl, rfl, rfl, rfl, rfl, rfl, rfl, rfl, rfl, rfl, rfl, rfl, rfl, rfl, rfl, rfl, rfl⟩

/-- R122, R123: the L bit and the offset; BX with Rm = r14 -/
theorem test_decode_branch :
    decodeArm 0b0001_101_0_100000000000000000000001 = .ok (.b .ne 0x800001)
      ∧ decodeArm 0b0001_101_1_100000000000000000000001 = .ok (.bl .ne 0x800001)
      ∧ decodeArm 0b1110_0001_0010_1111_1111_1111_0001_1110 = .ok (.bx .al 14) :=
  ⟨rfl, rfl, rfl⟩

/-- R115: bit 22 is R; MRS to r2, MSR with field_mask 1001 from r4, and with rotate_imm 4, imm8 0xD3 -/
theorem test_decode_psr :
    decodeArm 0b1110_00010_0_00_1111_0010_000000000000 = .ok (.mrs .al false 2)
      ∧ decodeArm 0b1110_00010_1_00_1111_0010_000000000000 = .ok (.mrs .al true 2)
      ∧ decodeArm 0b1110_00010_0_10_1001_1111_00000000_0100 = .ok (.msrCpsrReg .al 9 4)
      ∧ decodeArm 0b1110_00010_1_10_1001_1111_00000000_0100 = .ok (.msrSpsrReg .al 9 4)
      ∧ decodeArm 0b1110_00110_0_10_1001_1111_0100_11010011 = .ok (.msrCpsrImm .al 9 4 0xD3)
      ∧ decodeArm 0b1110_00110_1_10_1001_1111_0100_11010011 = .ok (.msrSpsrImm .al 9 4 0xD3) :=
  ⟨rfl, rfl, rfl, rfl, rfl, rfl⟩

/-- R120, R124, R125: SWI, the Undefined family, and the coprocessor space, with the ignored bits kept -/
theorem test_decode_traps :
    decodeArm 0b1110_1111_000000000000000000010010 = .ok (.swi .al 0x12)
      ∧ decodeArm 0b1110_011_11111000000000000111_1_0000 = .ok (.und .al 0xF8007 0)
      ∧ decodeArm 0b1110_1110_1000000000000000001_0_0010 = .ok (.cdp .al 0x40001 2)
      ∧ decodeArm 0b1110_1110_100_0_000000000000001_1_0010 = .ok (.mcr .al 4 1 2)
      ∧ decodeArm 0b1110_1110_100_1_000000000000001_1_0010 = .ok (.mrc .al 4 1 2)
      ∧ decodeArm 0b1110_110_1000_0_00000000000000000001 = .ok (.stc .al 8 1)
      ∧ decodeArm 0b1110_110_1000_1_00000000000000000001 = .ok (.ldc .al 8 1) :=
  ⟨rfl, rfl, rfl, rfl, rfl, rfl, rfl⟩

/-- Every condition code (R111, R171), in front of 0x1A00000, MOV r0, r0. -/
theorem test_decode_conditions :
    decodeArm 0x01A00000 = .ok (.mov .eq false 0 0 (.immShift 0 .lsl 0))
      ∧ decodeArm 0x11A00000 = .ok (.mov .ne false 0 0 (.immShift 0 .lsl 0))
      ∧ decodeArm 0x21A00000 = .ok (.mov .cs false 0 0 (.immShift 0 .lsl 0))
      ∧ decodeArm 0x31A00000 = .ok (.mov .cc false 0 0 (.immShift 0 .lsl 0))
      ∧ decodeArm 0x41A00000 = .ok (.mov .mi false 0 0 (.immShift 0 .lsl 0))
      ∧ decodeArm 0x51A00000 = .ok (.mov .pl false 0 0 (.immShift 0 .lsl 0))
      ∧ decodeArm 0x61A00000 = .ok (.mov .vs false 0 0 (.immShift 0 .lsl 0))
      ∧ decodeArm 0x71A00000 = .ok (.mov .vc false 0 0 (.immShift 0 .lsl 0))
      ∧ decodeArm 0x81A00000 = .ok (.mov .hi false 0 0 (.immShift 0 .lsl 0))
      ∧ decodeArm 0x91A00000 = .ok (.mov .ls false 0 0 (.immShift 0 .lsl 0))
      ∧ decodeArm 0xA1A00000 = .ok (.mov .ge false 0 0 (.immShift 0 .lsl 0))
      ∧ decodeArm 0xB1A00000 = .ok (.mov .lt false 0 0 (.immShift 0 .lsl 0))
      ∧ decodeArm 0xC1A00000 = .ok (.mov .gt false 0 0 (.immShift 0 .lsl 0))
      ∧ decodeArm 0xD1A00000 = .ok (.mov .le false 0 0 (.immShift 0 .lsl 0))
      ∧ decodeArm 0xE1A00000 = .ok (.mov .al false 0 0 (.immShift 0 .lsl 0))
      ∧ decodeArm 0xF1A00000 = .ok (.mov .nv false 0 0 (.immShift 0 .lsl 0)) :=
  ⟨rfl, rfl, rfl, rfl, rfl, rfl, rfl, rfl, rfl, rfl, rfl, rfl, rfl, rfl, rfl, rfl⟩

/-- The illegal sub-encodings of R133: a test opcode with S = 0, SH = 00, a signed store, and bits 11:8 of a register offset. -/
theorem test_decode_illegal :
    (∃ e, decodeArm 0xE1000010 = .error e) ∧ (∃ e, decodeArm 0xE1000F90 = .error e) ∧ (∃ e, decodeArm 0xE1C100D0 = .error e)
      ∧ (∃ e, decodeArm 0xE1C100F0 = .error e) ∧ (∃ e, decodeArm 0xE19101B2 = .error e) :=
  ⟨⟨_, rfl⟩, ⟨_, rfl⟩, ⟨_, rfl⟩, ⟨_, rfl⟩, ⟨_, rfl⟩⟩

/-- format 1: 000, Op, Offset5 = 17, Rs = r2, Rd = r5 -/
theorem test_decode_thumb_shifted :
    decodeThumb 0b000_00_10001_010_101 = .ok (.thumbLslImm 17 2 5)
      ∧ decodeThumb 0b000_01_10001_010_101 = .ok (.thumbLsrImm 17 2 5)
      ∧ decodeThumb 0b000_10_10001_010_101 = .ok (.thumbAsrImm 17 2 5) :=
  ⟨rfl, rfl, rfl⟩

/-- format 2: 00011, I, Op, Rn or Offset3 = 6, Rs = r2, Rd = r5 -/
theorem test_decode_thumb_add_subtract :
    decodeThumb 0b00011_0_0_110_010_101 = .ok (.thumbAddReg 6 2 5)
      ∧ decodeThumb 0b00011_0_1_110_010_101 = .ok (.thumbSubReg 6 2 5)
      ∧ decodeThumb 0b00011_1_0_110_010_101 = .ok (.thumbAddImm3 6 2 5)
      ∧ decodeThumb 0b00011_1_1_110_010_101 = .ok (.thumbSubImm3 6 2 5) :=
  ⟨rfl, rfl, rfl, rfl⟩

/-- format 3: 001, Op, Rd = r5, Offset8 = 0x81 -/
theorem test_decode_thumb_immediate :
    decodeThumb 0b001_00_101_10000001 = .ok (.thumbMovImm8 5 0x81)
      ∧ decodeThumb 0b001_01_101_10000001 = .ok (.thumbCmpImm8 5 0x81)
      ∧ decodeThumb 0b001_10_101_10000001 = .ok (.thumbAddImm8 5 0x81)
      ∧ decodeThumb 0b001_11_101_10000001 = .ok (.thumbSubImm8 5 0x81) :=
  ⟨rfl, rfl, rfl, rfl⟩

/-- format 4 with the Op values of R141: 010000, Op, Rs = r2, Rd = r5 -/
theorem test_decode_thumb_alu :
    decodeThumb 0b010000_0000_010_101 = .ok (.thumbAndAlu 2 5)
      ∧ decodeThumb 0b010000_0001_010_101 = .ok (.thumbEorAlu 2 5)
      ∧ decodeThumb 0b010000_0010_010_101 = .ok (.thumbLslAlu 2 5)
      ∧ decodeThumb 0b010000_0011_010_101 = .ok (.thumbLsrAlu 2 5)
      ∧ decodeThumb 0b010000_0100_010_101 = .ok (.thumbAsrAlu 2 5)
      ∧ decodeThumb 0b010000_0101_010_101 = .ok (.thumbAdcAlu 2 5)
      ∧ decodeThumb 0b010000_0110_010_101 = .ok (.thumbSbcAlu 2 5)
      ∧ decodeThumb 0b010000_0111_010_101 = .ok (.thumbRorAlu 2 5)
      ∧ decodeThumb 0b010000_1000_010_101 = .ok (.thumbTstAlu 2 5)
      ∧ decodeThumb 0b010000_1001_010_101 = .ok (.thumbNegAlu 2 5)
      ∧ decodeThumb 0b010000_1010_010_101 = .ok (.thumbCmpAlu 2 5)
      ∧ decodeThumb 0b010000_1011_010_101 = .ok (.thumbCmnAlu 2 5)
      ∧ decodeThumb 0b010000_1100_010_101 = .ok (.thumbOrrAlu 2 5)
      ∧ decodeThumb 0b010000_1101_010_101 = .ok (.thumbMulAlu 2 5)
      ∧ decodeThumb 0b010000_1110_010_101 = .ok (.thumbBicAlu 2 5)
      ∧ decodeThumb 0b010000_1111_010_101 = .ok (.thumbMvnAlu 2 5) :=
  ⟨rfl, rfl, rfl, rfl, rfl, rfl, rfl, rfl, rfl, rfl, rfl, rfl, rfl, rfl, rfl, rfl⟩

/-- format 5: 010001, Op, H1 = 1, H2 = 0, Rs = r2, Rd = r5 -/
theorem test_decode_thumb_hi :
    decodeThumb 0b010001_00_1_0_010_101 = .ok (.thumbAddHi true false 2 5)
      ∧ decodeThumb 0b010001_01_1_0_010_101 = .ok (.thumbCmpHi true false 2 5)
      ∧ decodeThumb 0b010001_10_1_0_010_101 = .ok (.thumbMovHi true false 2 5)
      ∧ decodeThumb 0b010001_11_1_0_010_101 = .ok (.thumbBx true false 2 5) :=
  ⟨rfl, rfl, rfl, rfl⟩

/-- format 6: 01001, Rd = r5, Word8 = 0x81 -/
theorem test_decode_thumb_pc_load :
    decodeThumb 0b01001_101_10000001 = .ok (.thumbLdrPc 5 0x81) :=
  rfl

/-- formats 7 and 8: 0101, two bits, Ro = r3, Rb = r2, Rd = r5 -/
theorem test_decode_thumb_register_offset :
    decodeThumb 0b0101_00_0_011_010_101 = .ok (.thumbStrRegOff 3 2 5)
      ∧ decodeThumb 0b0101_01_0_011_010_101 = .ok (.thumbStrbRegOff 3 2 5)
      ∧ decodeThumb 0b0101_10_0_011_010_101 = .ok (.thumbLdrRegOff 3 2 5)
      ∧ decodeThumb 0b0101_11_0_011_010_101 = .ok (.thumbLdrbRegOff 3 2 5)
      ∧ decodeThumb 0b0101_00_1_011_010_101 = .ok (.thumbStrhRegOff 3 2 5)
      ∧ decodeThumb 0b0101_01_1_011_010_101 = .ok (.thumbLdsbRegOff 3 2 5)
      ∧ decodeThumb 0b0101_10_1_011_010_101 = .ok (.thumbLdrhRegOff 3 2 5)
      ∧ decodeThumb 0b0101_11_1_011_010_101 = .ok (.thumbLdshRegOff 3 2 5) :=
  ⟨rfl, rfl, rfl, rfl, rfl, rfl, rfl, rfl⟩

/-- formats 9 and 10: 011, B, L or 1000, L, Offset5 = 17, Rb = r2, Rd = r5 -/
theorem test_decode_thumb_immediate_offset :
    decodeThumb 0b011_00_10001_010_101 = .ok (.thumbStrImmOff 17 2 5)
      ∧ decodeThumb 0b011_01_10001_010_101 = .ok (.thumbLdrImmOff 17 2 5)
      ∧ decodeThumb 0b011_10_10001_010_101 = .ok (.thumbStrbImmOff 17 2 5)
      ∧ decodeThumb 0b011_11_10001_010_101 = .ok (.thumbLdrbImmOff 17 2 5)
      ∧ decodeThumb 0b1000_0_10001_010_101 = .ok (.thumbStrhImmOff 17 2 5)
      ∧ decodeThumb 0b1000_1_10001_010_101 = .ok (.thumbLdrhImmOff 17 2 5) :=
  ⟨rfl, rfl, rfl, rfl, rfl, rfl⟩

/-- formats 11 to 13 -/
theorem test_decode_thumb_sp_and_address :
    decodeThumb 0b1001_0_101_10000001 = .ok (.thumbStrSp 5 0x81)
      ∧ decodeThumb 0b1001_1_101_10000001 = .ok (.thumbLdrSp 5 0x81)
      ∧ decodeThumb 0b1010_0_101_10000001 = .ok (.thumbAddPc 5 0x81)
      ∧ decodeThumb 0b1010_1_101_10000001 = .ok (.thumbAddSp 5 0x81)
      ∧ decodeThumb 0b10110000_0_1000001 = .ok (.thumbSpPlus 0x41)
      ∧ decodeThumb 0b10110000_1_1000001 = .ok (.thumbSpMinus 0x41) :=
  ⟨rfl, rfl, rfl, rfl, rfl, rfl⟩

/-- formats 14 and 15 -/
theorem test_decode_thumb_multiple :
    decodeThumb 0b1011_0_10_1_10000001 = .ok (.thumbPush true 0x81)
      ∧ decodeThumb 0b1011_1_10_0_10000001 = .ok (.thumbPop false 0x81)
      ∧ decodeThumb 0b1100_0_101_10000001 = .ok (.thumbStmia 5 0x81)
      ∧ decodeThumb 0b1100_1_101_10000001 = .ok (.thumbLdmia 5 0x81) :=
  ⟨rfl, rfl, rfl, rfl⟩

/-- formats 16 to 19, and the reserved condition 1110 -/
theorem test_decode_thumb_branch :
    decodeThumb 0b1101_0001_10000001 = .ok (.thumbBCond 1 0x81)
      ∧ decodeThumb 0b11011111_10000001 = .ok (.thumbSwi 0x81)
      ∧ decodeThumb 0b1101_1110_10000001 = .ok (.thumbUnd 0x81)
      ∧ decodeThumb 0b11100_10000000001 = .ok (.thumbB 0x401)
      ∧ decodeThumb 0b1111_0_10000000001 = .ok (.thumbBlHigh 0x401)
      ∧ decodeThumb 0b1111_1_10000000001 = .ok (.thumbBlLow 0x401) :=
  ⟨rfl, rfl, rfl, rfl, rfl, rfl⟩

/-- The ends of the THUMB ranges that classify as Undefined, and their neighbours (R151). -/
theorem test_classify_thumb_undefined :
    classifyThumb 0xB100 = .undefined ∧ classifyThumb 0xB3FF = .undefined ∧ classifyThumb 0xB600 = .undefined
      ∧ classifyThumb 0xBBFF = .undefined ∧ classifyThumb 0xBE00 = .undefined ∧ classifyThumb 0xBFFF = .undefined
      ∧ classifyThumb 0xDE00 = .undefined ∧ classifyThumb 0xDEFF = .undefined ∧ classifyThumb 0xE800 = .undefined
      ∧ classifyThumb 0xEFFF = .undefined ∧ classifyThumb 0xB0FF ≠ .undefined ∧ classifyThumb 0xB400 ≠ .undefined
      ∧ classifyThumb 0xBC00 ≠ .undefined ∧ classifyThumb 0xDDFF ≠ .undefined ∧ classifyThumb 0xDF00 ≠ .undefined
      ∧ classifyThumb 0xE7FF ≠ .undefined ∧ classifyThumb 0xF000 ≠ .undefined := by
  decide

/-- R162: NOP is the word 0xE1A00000; PUSH and POP are STMDB SP! and LDMIA SP!. -/
theorem test_pseudo :
    encode pseudoNop = .arm 0xE1A00000 ∧ encode (pseudoPush .al 0x4010) = .arm 0xE92D4010
      ∧ encode (pseudoPop .al 0x4010) = .arm 0xE8BD4010 := by
  decide

/-- R162: a constant by MOV, by MVN, and from the literal pool; ADR back to an address below. -/
theorem test_pseudo_constants :
    pseudoLdrConst .al 0 0x02000000 0 0 = some (.mov .al false 0 0 (.imm 4 2))
      ∧ pseudoLdrConst .al 0 0xFFFFFFF9 0 0 = some (.mvn .al false 0 0 (.imm 0 6))
      ∧ pseudoLdrConst .al 0 0x12345678 0x08000010 0x08000000 = some (.ldr .al .offset true 15 0 (.imm 0x010))
      ∧ pseudoAdr .al 0 0x07FFFFF0 0x08000000 = some (.sub .al false 15 0 (.imm 0 0x10)) := by
  decide

/-- R160, R161: the text of `MOV r0, r1, RRX`, `LDR r0, [r1], #4` and `BNE` as the vectors write them. -/
theorem test_text :
    asmText 0x08000000 (.mov .al true 0 0 (.immShift 0 .ror 1)) = some "MOVS r0, r1, RRX"
      ∧ asmText 0x08000000 (.ldr .eq .post true 1 0 (.imm 4)) = some "LDREQ r0, [r1], #4"
      ∧ asmText 0x08000000 (.umull .al false 1 0 3 2) = some "UMULL r0, r1, r2, r3" := by
  decide

/-! ## Single steps -/

/-- The start of a vector: the CPSR and the mapping of its mode, the PC, registers of that mode, words of memory, all else 0. -/
def start (cpsr pc : Word) (regs : List (Reg × Word)) (words : List (Word × Word)) : State :=
  let s0 : State := { State.reset with
    phys := ((Vector.replicate 37 0).set 30 pc).set 31 cpsr
    mode := (Mode.ofBits (fieldAt cpsr 0 5)).getD .system }
  let s1 := regs.foldl (fun s r => s.setReg r.1 r.2) s0
  words.foldl (fun s a => s.writeWord a.1 a.2) s1

/-- The vectors' default start: System mode at 0x08000000. -/
def sys (regs : List (Reg × Word)) (words : List (Word × Word)) : State := start 0x1F 0x08000000 regs words

/-- One step that runs the word. -/
def run (w : Word) (s : State) : Result := step (s.withFetchWord 32 w.toNat)

/-- The step ends with Next, in a state that has the property. -/
def done (r : Result) (p : State → Bool) : Bool :=
  match r with
  | .next t => p t
  | .fault _ => false
  | .refused _ => false

/-- The step ends with the fault. -/
def stopsWith (r : Result) (f : Fault) : Bool :=
  match r with
  | .next _ => false
  | .fault g => g == f
  | .refused _ => false

/-- The step is refused because of THUMB state. -/
def refusesThumb (r : Result) : Bool :=
  match r with
  | .next _ => false
  | .fault _ => false
  | .refused g => g == .thumbExecution

/-! V3, data processing -/

theorem test_and :
    done (run 0xE01100A2 (start 0x1F 0x8000000 [(1, 0xFFFFFFFF), (2, 3)] []))
      (fun t => t.reg 0 == 1 && t.cpsr == 0x2000001F && t.pc == 0x8000004) = true := by decide
theorem test_eor :
    done (run 0xE0310002 (start 0x1F 0x8000000 [(1, 0xF0F0F0F0), (2, 0xF0F0F0F0)] []))
      (fun t => t.reg 0 == 0 && t.cpsr == 0x4000001F && t.pc == 0x8000004) = true := by decide
theorem test_sub_borrow :
    done (run 0xE0510002 (start 0x1F 0x8000000 [(1, 1), (2, 2)] []))
      (fun t => t.reg 0 == 0xFFFFFFFF && t.cpsr == 0x8000001F && t.pc == 0x8000004) = true := by decide
theorem test_sub_overflow :
    done (run 0xE0510002 (start 0x1F 0x8000000 [(1, 0x80000000), (2, 1)] []))
      (fun t => t.reg 0 == 0x7FFFFFFF && t.cpsr == 0x3000001F && t.pc == 0x8000004) = true := by decide
theorem test_rsb :
    done (run 0xE2710000 (start 0x1F 0x8000000 [(1, 1)] []))
      (fun t => t.reg 0 == 0xFFFFFFFF && t.cpsr == 0x8000001F && t.pc == 0x8000004) = true := by decide
theorem test_add_carry_overflow :
    done (run 0xE0910002 (start 0x1F 0x8000000 [(1, 0x80000000), (2, 0x80000000)] []))
      (fun t => t.reg 0 == 0 && t.cpsr == 0x7000001F && t.pc == 0x8000004) = true := by decide
theorem test_add_keeps_flags :
    done (run 0xE0810002 (start 0x9000001F 0x8000000 [(1, 0xFFFFFFFF), (2, 1)] []))
      (fun t => t.reg 0 == 0 && t.cpsr == 0x9000001F && t.pc == 0x8000004) = true := by decide
theorem test_adc :
    done (run 0xE0B10002 (start 0x2000001F 0x8000000 [(1, 0x7FFFFFFF), (2, 0)] []))
      (fun t => t.reg 0 == 0x80000000 && t.cpsr == 0x9000001F && t.pc == 0x8000004) = true := by decide
theorem test_sbc_borrows :
    done (run 0xE0D10002 (start 0x1F 0x8000000 [(1, 0), (2, 0)] []))
      (fun t => t.reg 0 == 0xFFFFFFFF && t.cpsr == 0x8000001F && t.pc == 0x8000004) = true := by decide
theorem test_sbc :
    done (run 0xE0D10002 (start 0x2000001F 0x8000000 [(1, 5), (2, 3)] []))
      (fun t => t.reg 0 == 2 && t.cpsr == 0x2000001F && t.pc == 0x8000004) = true := by decide
theorem test_rsc :
    done (run 0xE0F10002 (start 0x1F 0x8000000 [(1, 3), (2, 5)] []))
      (fun t => t.reg 0 == 1 && t.cpsr == 0x2000001F && t.pc == 0x8000004) = true := by decide
theorem test_tst_rotate_carry :
    done (run 0xE3110102 (start 0x1F 0x8000000 [(1, 0x80000000)] []))
      (fun t => t.cpsr == 0xA000001F && t.pc == 0x8000004) = true := by decide
theorem test_tst_carry_kept :
    done (run 0xE3110001 (start 0x2000001F 0x8000000 [(1, 2)] []))
      (fun t => t.cpsr == 0x6000001F && t.pc == 0x8000004) = true := by decide
theorem test_teq :
    done (run 0xE1310002 (start 0x1F 0x8000000 [(1, 0x1234), (2, 0x1234)] []))
      (fun t => t.cpsr == 0x4000001F && t.pc == 0x8000004) = true := by decide
theorem test_cmp :
    done (run 0xE1510002 (start 0x1F 0x8000000 [(1, 0xFFFFFFFF), (2, 1)] []))
      (fun t => t.cpsr == 0xA000001F && t.pc == 0x8000004) = true := by decide
theorem test_cmn :
    done (run 0xE3710001 (start 0x1F 0x8000000 [(1, 0xFFFFFFFF)] []))
      (fun t => t.cpsr == 0x6000001F && t.pc == 0x8000004) = true := by decide
theorem test_orr_shift_zero :
    done (run 0xE1910312 (start 0x2000001F 0x8000000 [(1, 0), (2, 0x80000000), (3, 0x100)] []))
      (fun t => t.reg 0 == 0x80000000 && t.cpsr == 0xA000001F && t.pc == 0x8000004) = true := by decide
theorem test_mov_rrx :
    done (run 0xE1B00061 (start 0x2000001F 0x8000000 [(1, 1)] []))
      (fun t => t.reg 0 == 0x80000000 && t.cpsr == 0xA000001F && t.pc == 0x8000004) = true := by decide
theorem test_mov_pc :
    done (run 0xE1A0000F (start 0x1F 0x8000000 [] []))
      (fun t => t.reg 0 == 0x8000000 && t.cpsr == 0x1F && t.pc == 0x8000004) = true := by decide
theorem test_bic :
    done (run 0xE3D100FF (start 0x1F 0x8000000 [(1, 0xFF)] []))
      (fun t => t.reg 0 == 0 && t.cpsr == 0x4000001F && t.pc == 0x8000004) = true := by decide
theorem test_mvn :
    done (run 0xE3F00000 (start 0x1F 0x8000000 [] []))
      (fun t => t.reg 0 == 0xFFFFFFFF && t.cpsr == 0x8000001F && t.pc == 0x8000004) = true := by decide
theorem test_rs_is_pc :
    stopsWith (run 0xE1A00F11 (sys [(1, 1)] [])) (.unpredictable .rsIsPc) = true := by decide
theorem test_test_rd_is_pc :
    stopsWith (run 0xE15FF000 (sys [] [])) (.unpredictable .testRdIsPc) = true := by decide

/-! V4, multiplies -/

theorem test_mul :
    done (run 0xE0100291 (start 0x3000001F 0x8000000 [(1, 0x80000001), (2, 0x80000001)] []))
      (fun t => t.reg 0 == 1 && t.cpsr == 0x3000001F && t.pc == 0x8000004) = true := by decide
theorem test_mla :
    done (run 0xE0303291 (start 0x1F 0x8000000 [(1, 0xFFFFFFFF), (2, 1), (3, 1)] []))
      (fun t => t.reg 0 == 0 && t.cpsr == 0x4000001F && t.pc == 0x8000004) = true := by decide
theorem test_umull :
    done (run 0xE0810392 (start 0x1F 0x8000000 [(2, 0xFFFFFFFF), (3, 0xFFFFFFFF)] []))
      (fun t => t.reg 0 == 1 && t.reg 1 == 0xFFFFFFFE && t.cpsr == 0x1F && t.pc == 0x8000004) = true := by decide
theorem test_umlal :
    done (run 0xE0A10392 (start 0x1F 0x8000000 [(0, 2), (1, 0), (2, 0xFFFFFFFF), (3, 2)] []))
      (fun t => t.reg 0 == 0 && t.reg 1 == 2 && t.cpsr == 0x1F && t.pc == 0x8000004) = true := by decide
theorem test_smull :
    done (run 0xE0C10392 (start 0x1F 0x8000000 [(2, 0xFFFFFFFF), (3, 2)] []))
      (fun t => t.reg 0 == 0xFFFFFFFE && t.reg 1 == 0xFFFFFFFF && t.cpsr == 0x1F && t.pc == 0x8000004) = true := by decide
theorem test_smlal :
    done (run 0xE0F10392 (start 0x1F 0x8000000 [(0, 1), (1, 0), (2, 0xFFFFFFFF), (3, 1)] []))
      (fun t => t.reg 0 == 0 && t.reg 1 == 0 && t.cpsr == 0x4000001F && t.pc == 0x8000004) = true := by decide
theorem test_mul_rd_is_rm :
    stopsWith (run 0xE0000190 (sys [(0, 2), (1, 3)] [])) (.unpredictable .mulRdIsRm) = true := by decide
theorem test_umull_overlap :
    stopsWith (run 0xE0812392 (sys [(2, 1), (3, 1)] [])) (.unpredictable .longMulOverlap) = true := by decide

/-! V5 and V11, single transfers and swap -/

theorem test_ldr_post :
    done (run 0xE4910004 (sys [(1, 0x2000)] [(0x2000, 0xDEADBEEF)]))
      (fun t => t.reg 0 == 0xDEADBEEF && t.reg 1 == 0x2004 && t.pc == 0x8000004) = true := by decide
theorem test_ldr_rotated :
    done (run 0xE5910003 (sys [(1, 0x2000)] [(0x2000, 0x11223344)]))
      (fun t => t.reg 0 == 0x22334411 && t.reg 1 == 0x2000) = true := by decide
theorem test_str_misaligned :
    done (run 0xE5810000 (sys [(0, 0xAABBCCDD), (1, 0x3003)] []))
      (fun t => t.readWord 0x3000 == 0xAABBCCDD && t.reg 1 == 0x3003 && t.pc == 0x8000004) = true := by decide
theorem test_str_base :
    done (run 0xE4811004 (sys [(1, 0x3000)] []))
      (fun t => t.readWord 0x3000 == 0x3000 && t.reg 1 == 0x3004) = true := by decide
theorem test_ldrb :
    done (run 0xE5D10001 (sys [(1, 0x2000)] [(0x2000, 0x8000)]))
      (fun t => t.reg 0 == 0x80 && t.reg 1 == 0x2000) = true := by decide
theorem test_strb :
    done (run 0xE5C10000 (sys [(0, 0x123456AB), (1, 0x2000)] [(0x2000, 0xFFFFFFFF)]))
      (fun t => t.readWord 0x2000 == 0xFFFFFFAB) = true := by decide
theorem test_ldrt :
    done (run 0xE4B10004 (sys [(1, 0x2000)] [(0x2000, 0x76543210)]))
      (fun t => t.reg 0 == 0x76543210 && t.reg 1 == 0x2004) = true := by decide
/-- R235: STRT r0, [r1], #4 -/
theorem test_strt :
    done (run 0xE4A10004 (sys [(0, 0x12345678), (1, 0x2000)] []))
      (fun t => t.readWord 0x2000 == 0x12345678 && t.reg 1 == 0x2004) = true := by decide
/-- R234: LDRBT r0, [r1], #1 -/
theorem test_ldrbt :
    done (run 0xE4F10001 (sys [(1, 0x2001)] [(0x2000, 0x8000)]))
      (fun t => t.reg 0 == 0x80 && t.reg 1 == 0x2002) = true := by decide
theorem test_strbt :
    done (run 0xE4E10001 (sys [(0, 0x1FF), (1, 0x2000)] []))
      (fun t => t.readWord 0x2000 == 0xFF && t.reg 1 == 0x2001) = true := by decide
theorem test_ldrh :
    done (run 0xE1B100B2 (sys [(1, 0x2000), (2, 6)] [(0x2004, 0x12340000)]))
      (fun t => t.reg 0 == 0x1234 && t.reg 1 == 0x2006) = true := by decide
theorem test_ldrh_misaligned :
    stopsWith (run 0xE1D100B1 (sys [(1, 0x2000)] [])) (.unpredictable .misalignedHalfword) = true := by decide
theorem test_strh :
    done (run 0xE0C100B2 (sys [(0, 0xCAFEF00D), (1, 0x2000)] []))
      (fun t => t.readWord 0x2000 == 0xF00D && t.reg 1 == 0x2002) = true := by decide
theorem test_ldrsb :
    done (run 0xE1D100D0 (sys [(1, 0x2000)] [(0x2000, 0x80)]))
      (fun t => t.reg 0 == 0xFFFFFF80) = true := by decide
theorem test_ldrsh :
    done (run 0xE15101F2 (sys [(1, 0x2014)] [(0x2000, 0x7FFF0000)]))
      (fun t => t.reg 0 == 0x7FFF && t.reg 1 == 0x2014) = true := by decide
theorem test_swp :
    done (run 0xE1010090 (sys [(0, 5), (1, 0x2000)] [(0x2000, 9)]))
      (fun t => t.reg 0 == 9 && t.readWord 0x2000 == 5 && t.pc == 0x8000004) = true := by decide
theorem test_swpb :
    done (run 0xE1410092 (sys [(1, 0x2001), (2, 0xAB)] [(0x2000, 0x11223344)]))
      (fun t => t.reg 0 == 0x33 && t.readWord 0x2000 == 0x1122AB44) = true := by decide
theorem test_ldr_base_is_destination :
    stopsWith (run 0xE4911004 (sys [(1, 0x2000)] [])) (.unpredictable .baseIsDestination) = true := by decide
/-- V9: all four bytes are checked in ascending order before any access. -/
theorem test_bus_error : stopsWith (run 0xE5910000 { sys [(1, 0x2000)] [] with busHoles := [⟨0x2001, 0x2001, true, false⟩] })
    (.busError 0x2001 .read) = true := by
  decide

/-! V6, block transfers -/

theorem test_ldmia :
    done (run 0xE8B0000E (sys [(0, 0x1000)] [(0x1000, 1), (0x1004, 2), (0x1008, 3)]))
      (fun t => t.reg 0 == 0x100C && t.reg 1 == 1 && t.reg 2 == 2 && t.reg 3 == 3 && t.pc == 0x8000004) = true := by decide
theorem test_ldmia_pc :
    done (run 0xE8908002 (sys [(0, 0x1000)] [(0x1000, 1), (0x1004, 0x8000040)]))
      (fun t => t.reg 0 == 0x1000 && t.reg 1 == 1 && t.pc == 0x8000040) = true := by decide
theorem test_ldmib :
    done (run 0xE9B00006 (sys [(0, 0x1000)] [(0x1004, 2), (0x1008, 3)]))
      (fun t => t.reg 0 == 0x1008 && t.reg 1 == 2 && t.reg 2 == 3) = true := by decide
theorem test_ldmda :
    done (run 0xE8300006 (sys [(0, 0x1000)] [(0xFFC, 0xD), (0x1000, 1)]))
      (fun t => t.reg 0 == 0xFF8 && t.reg 1 == 0xD && t.reg 2 == 1) = true := by decide
theorem test_ldmdb :
    done (run 0xE9300006 (sys [(0, 0x1000)] [(0xFF8, 0xC), (0xFFC, 0xD)]))
      (fun t => t.reg 0 == 0xFF8 && t.reg 1 == 0xC && t.reg 2 == 0xD) = true := by decide
theorem test_stmia :
    done (run 0xE8A00003 (sys [(0, 0x1000), (1, 1)] []))
      (fun t => t.reg 0 == 0x1008 && t.readWord 0x1000 == 0x1000 && t.readWord 0x1004 == 1) = true := by decide
theorem test_stmib :
    done (run 0xE9808002 (sys [(0, 0x1000), (1, 1)] []))
      (fun t => t.reg 0 == 0x1000 && t.readWord 0x1004 == 1 && t.readWord 0x1008 == 0x8000000) = true := by decide
theorem test_stmda :
    done (run 0xE820000E (sys [(0, 0x1000), (1, 1), (2, 2), (3, 3)] []))
      (fun t => t.reg 0 == 0xFF4 && t.readWord 0xFF8 == 1 && t.readWord 0x1000 == 3) = true := by decide
theorem test_stmdb :
    done (run 0xE92D4010 (sys [(4, 4), (13, 0x3000), (14, 0xE)] []))
      (fun t => t.reg 13 == 0x2FF8 && t.readWord 0x2FF8 == 4 && t.readWord 0x2FFC == 0xE) = true := by decide
theorem test_ldmReturn : done (run 0xE8FD8001 ((start 0x12 0x8000000 [(13, 0x3000)] [(0x3000, 7), (0x3004, 0x8000)]).setSlot 33 0x10))
    (fun t => t.reg 0 == 7 && t.reg 13 == 0 && t.pc == 0x8000 && t.cpsr == 0x10 && t.slot 22 == 0x3008) = true := by
  decide
theorem test_ldmReturn_system :
    stopsWith (run 0xE8FD8001 (sys [(13, 0x3000)] [])) (.invalidModeAccess .read) = true := by decide
theorem test_ldmUser :
    done (run 0xE8D00100 (start 0x11 0x8000000 [(0, 0x1000)] [(0x1000, 5)]))
      (fun t => t.slot 8 == 5 && t.slot 13 == 0 && t.cpsr == 0x11 && t.pc == 0x8000004) = true := by decide
theorem test_stmUser : done (run 0xE8C02000 ((start 0x12 0x8000000 [(0, 0x1000), (13, 0x3007FA0)] []).setSlot 18 0x3007F00))
    (fun t => t.readWord 0x1000 == 0x3007F00 && t.reg 13 == 0x3007FA0) = true := by
  decide

/-! V7, branches -/

theorem test_b_back :
    done (run 0xEAFFFFFE (sys [] []))
      (fun t => t.pc == 0x7FFFFF8 && t.reg 14 == 0) = true := by decide
theorem test_b_wraps :
    done (run 0xEA000001 (start 0x1F 0xFFFFFFFC [] []))
      (fun t => t.pc == 0) = true := by decide
theorem test_bl :
    done (run 0xEBFFFFC0 (start 0x1F 0x8000100 [] []))
      (fun t => t.pc == 0x8000000 && t.reg 14 == 0x8000104) = true := by decide
theorem test_bx_thumb :
    done (run 0xE12FFF1E (sys [(14, 0x8000201)] []))
      (fun t => t.pc == 0x8000200 && t.cpsr == 0x3F) = true := by decide
theorem test_bx_misaligned :
    stopsWith (run 0xE12FFF10 (sys [(0, 0x8000102)] [])) (.unpredictable .misalignedPcWrite) = true := by decide
theorem test_condition_fails :
    done (run 0x1B000010 (start 0x4000001F 0x8000000 [] []))
      (fun t => t.pc == 0x8000004 && t.reg 14 == 0) = true := by decide

/-! V8, PSR transfer -/

theorem test_mrs_cpsr :
    done (run 0xE10F0000 (start 0x6000001F 0x8000000 [] []))
      (fun t => t.reg 0 == 0x6000001F && t.pc == 0x8000004) = true := by decide
theorem test_mrs_spsr : done (run 0xE14F0000 ((start 0x92 0x8000000 [] []).setSlot 33 0xF0000010)) (fun t => t.reg 0 == 0xF0000010) = true := by
  decide
theorem test_msrCpsrReg_user :
    done (run 0xE129F000 (start 0x10 0x8000000 [(0, 0xF00000D3)] []))
      (fun t => t.cpsr == 0xF0000010 && t.pc == 0x8000004) = true := by decide
theorem test_msrCpsrReg_t :
    stopsWith (run 0xE121F000 (sys [(0, 0x3F)] [])) (.unpredictable .msrChangesT) = true := by decide
theorem test_msrSpsrReg :
    done (run 0xE169F000 (start 0x92 0x8000000 [(0, 1)] []))
      (fun t => t.slot 33 == 1 && t.cpsr == 0x92 && t.pc == 0x8000004) = true := by decide
theorem test_msrSpsrReg_user :
    stopsWith (run 0xE169F000 (start 0x10 0x8000000 [] [])) (.invalidModeAccess .write) = true := by decide
theorem test_msrCpsrImm :
    done (run 0xE321F0D3 (sys [] []))
      (fun t => t.cpsr == 0xD3 && t.mode == .supervisor && t.pc == 0x8000004) = true := by decide
/-- R395: MSR SPSR_c, #0x10 in IRQ mode -/
theorem test_msrSpsrImm :
    done (run 0xE361F010 (start 0x92 0x8000000 [] []))
      (fun t => t.slot 33 == 0x10 && t.cpsr == 0x92 && t.pc == 0x8000004) = true := by decide

/-! V9, traps and refusals -/

theorem test_swi_report :
    stopsWith (run 0xEF000012 (start 0x1F 0x8000100 [] [])) (.softwareInterrupt 0x12) = true := by decide
theorem test_swi_enter : done (run 0xEF000012 { start 0x6000001F 0x8000100 [] [] with trapPolicy := .enter })
    (fun t => t.pc == 8 && t.cpsr == 0x60000093 && t.reg 14 == 0x8000104 && t.slot 34 == 0x6000001F) = true := by
  decide
theorem test_und_report :
    stopsWith (run 0xE7F000F0 (start 0x1F 0x8000100 [] [])) (.undefined 0xE7F000F0) = true := by decide
theorem test_und_enter : done (run 0xE7F000F0 { start 0x2000001F 0x8000100 [] [] with trapPolicy := .enter })
    (fun t => t.pc == 4 && t.cpsr == 0x2000009B && t.reg 14 == 0x8000104 && t.slot 36 == 0x2000001F) = true := by
  decide
theorem test_cdp :
    stopsWith (run 0xEE000000 (start 0x1F 0x8000100 [] [])) (.undefined 0xEE000000) = true := by decide
theorem test_stc :
    stopsWith (run 0xEC000000 (start 0x1F 0x8000100 [] [])) (.undefined 0xEC000000) = true := by decide
/-! R412: MCR, MRC and LDC likewise -/

theorem test_mcr :
    stopsWith (run 0xEE000010 (start 0x1F 0x8000100 [] [])) (.undefined 0xEE000010) = true := by decide
theorem test_mrc :
    stopsWith (run 0xEE100010 (start 0x1F 0x8000100 [] [])) (.undefined 0xEE100010) = true := by decide
theorem test_ldc :
    stopsWith (run 0xEC100000 (start 0x1F 0x8000100 [] [])) (.undefined 0xEC100000) = true := by decide
theorem test_illegal_word :
    stopsWith (run 0xE1000010 (start 0x1F 0x8000100 [] [])) (.undefined 0xE1000010) = true := by decide
theorem test_condition_nv :
    done (run 0xF7F000F0 (start 0x1F 0x8000100 [] []))
      (fun t => t.pc == 0x8000104 && t.reg 14 == 0) = true := by decide
theorem test_thumb_state : refusesThumb (step (start 0x3F 0x8000100 [] [(0x8000100, 0xE7F000F0)])) = true := by decide
/-- R16: the opcode a driver supplies is run, not the word at the PC (0xE3A00005 is MOV r0, #5), and in THUMB state only its low 16
bits are an opcode, refused like every other. -/
theorem test_supplied_opcode :
    done (stepOpcode (sys [] [(0x8000000, 0xE3A00009)]) 0xE3A00005) (fun t => t.reg 0 == 5 && t.pc == 0x8000004) = true
      ∧ stopsWith (stepOpcode (sys [] []) 0xE1000010) (.undefined 0xE1000010) = true
      ∧ refusesThumb (stepOpcode (start 0x3F 0x8000100 [] []) 0xE3A01888) = true := by decide
theorem test_thumb_instruction : refusesThumb (step ((sys [] []).withFetchWord 16 0x1888)) = true := by decide
/-- V9: writeback to the PC is checked before the alignment of the halfword. -/
theorem test_priority_writeback :
    stopsWith (run 0xE1FF00B1 (sys [] [])) (.unpredictable .writebackToPc) = true := by decide
/-- V9: the Unpredictable checks of LDM precede its SPSR access. -/
theorem test_priority_ldm :
    stopsWith (run 0xE8F08001 (sys [(0, 0x1000)] [])) (.unpredictable .ldmWritebackBaseInList) = true := by decide
/-- R12, R197: under Pipelined r15 reads 8 ahead, and 12 ahead in a register-specified shift. -/
theorem test_pipelined :
    done (run 0xE1A0000F { sys [] [] with pcReadModel := .pipelined }) (fun t => t.reg 0 == 0x8000008) = true
      ∧ done (run 0xE1A0011F { sys [] [] with pcReadModel := .pipelined }) (fun t => t.reg 0 == 0x800000C) = true := by
  decide

/-! V12, V13, W10: exception entry, returns, reset and the driver -/

theorem test_enter_fiq :
    (let t := enterException .fiq (start 0x10 0x8000200 [] [])
     t.pc == 0x1C && t.cpsr == 0xD1 && t.reg 14 == 0x8000204 && t.slot 32 == 0x10) = true := by
  decide

theorem test_enter_dabt :
    (let t := enterException .dabt (start 0x80000010 0x8000100 [] [])
     t.pc == 0x10 && t.cpsr == 0x80000097 && t.reg 14 == 0x8000108 && t.slot 35 == 0x80000010) = true := by
  decide

/-- After the IRQ row, SUBS pc, r14, #4 returns. -/
theorem test_return :
    done (run 0xE25EF004 (enterException .irq (start 0x10 0x8000200 [] []))) (fun t => t.pc == 0x8000200 && t.cpsr == 0x10) = true := by
  decide

theorem test_masked :
    (hostEnterException .irq (start 0x92 0x8000200 [] [])).isNone = true
      ∧ (hostEnterException .fiq (start 0x50 0x8000200 [] [])).isNone = true := by
  decide

/-- R472: with a failed fetch, a pending IRQ comes before the prefetch abort; where it is masked the abort is entered (R455). -/
theorem test_failed_fetch_after_irq :
    (let e : Events := { reset := none, stop := some (.fetchBusError 0x8000100), fiq := false, irq := true }
     let t := deliverAll e (start 0x1F 0x8000100 [] [])
     let u := deliverAll e (start 0x9F 0x8000100 [] [])
     t.mode == .irq && t.pc == 0x18 && t.reg 14 == 0x8000104 && u.mode == .abort && u.pc == 0x0C && u.reg 14 == 0x8000104)
      = true := by
  decide

/-- R472: the trap of an outcome first, then the FIQ; the IRQ is refused. -/
theorem test_trap_then_fiq :
    (let t := deliverAll { reset := none, stop := some (.busError 0 .read), fiq := true, irq := true } (start 0x10 0x8000100 [] [])
     t.mode == .fiq && t.pc == 0x1C && t.slot 32 == 0x97 && t.slot 21 == 0x14 && t.slot 27 == 0x8000108 && t.slot 35 == 0x10)
      = true := by
  decide

/-- R472, R492: a reset is the highest, and the masks it leaves hold. -/
theorem test_reset_first :
    deliverAll { reset := some ({ ResetParams.chosen with i := true, f := true }, Vector.replicate 37 0), stop := some (.undefined 0),
                 fiq := true, irq := true } (start 0x10 0x8000100 [] [])
      = (State.reset.setSlot 31 0xDF) := by
  decide

/-- The model's reset is the spec's reset operation with the chosen parameters, over a bank of zeros (V13, first row). -/
theorem test_reset : resetWith .chosen (Vector.replicate 37 0) State.reset = some State.reset := by decide

/-- V13, the two sets that are not valid. -/
theorem test_reset_invalid :
    resetWith { ResetParams.chosen with mode := .user } (Vector.replicate 37 0) State.reset = none
      ∧ resetWith { ResetParams.chosen with pc := 0x08000002 } (Vector.replicate 37 0) State.reset = none := by
  decide

/-- W10: SP of IRQ mode survives a visit to User mode. -/
theorem test_banked :
    ((hostEnterMode 0x12 State.reset).bind fun s1 => (hostWrite 13 0x03001234 s1).bind fun s2 =>
      (hostEnterMode 0x10 s2).bind fun s3 => (hostEnterMode 0x12 s3).map fun s4 => (hostRead 13 s3, hostRead 13 s4))
      = some (0x03007F00, 0x03001234) := by
  decide

/-- D34: the numbers of the outcomes. -/
theorem test_outcome_codes :
    outcomeCode (run 0xE1A00000 State.reset) = some 0 ∧ outcomeCode (run 0xEE000000 State.reset) = some 1
      ∧ outcomeCode (run 0xEF000000 State.reset) = some 2 ∧ outcomeCode (run 0xE14F0000 State.reset) = some 3
      ∧ outcomeCode (run 0xE10FF000 State.reset) = some 5 ∧ outcomeCode (thumbRefused State.reset) = some 6 := by
  decide

/-! ## Witnesses: concrete states and operands that meet the hypotheses of each statement, clause by clause -/

/-- bus_ok for every byte of a list, as a computation; it is `BusOk`. -/
def okAll (s : State) (d : Dir) (as : List Word) : Bool := as.all (fun a => s.busOk a d)

theorem okAll_iff (s : State) (d : Dir) (as : List Word) : okAll s d as = true ↔ BusOk s d as := List.all_eq_true

/-- The first bad byte, by computation. -/
theorem firstBad {s : State} {d : Dir} {as : List Word} {a : Word} (before after : List Word) (h : as = before ++ a :: after)
    (ok : okAll s d before = true) (bad : s.busOk a d = false) : FirstBad s d as a :=
  ⟨before, after, h, (okAll_iff s d before).mp ok, bad⟩

theorem witness_DecodeOfEncode :
    (Instr.ldmReturn .al .ia true 13 0x8001).WellFormed ∧ (Instr.thumbBCond 0xD 0x81).WellFormed := by decide

theorem witness_EncodeOfDecode :
    decodeCode (.arm 0xE1A00000) = .ok pseudoNop ∧ decodeCode (.thumb 0xF801) = .ok (.thumbBlLow 1) := ⟨rfl, rfl⟩

/-- A word in place at the PC. -/
def at0 (word : Word) (s : State) : State := s.withFetchWord 32 word.toNat

theorem witness_StepRunsDecoded_arm :
    okAll (at0 0xE1A00000 State.reset) .read (bytesFrom (at0 0xE1A00000 State.reset).pc 4) = true
      ∧ decodeBytes (at0 0xE1A00000 State.reset).t
          ((bytesFrom (at0 0xE1A00000 State.reset).pc 4).map (at0 0xE1A00000 State.reset).readByte) = .ok (pseudoNop, []) :=
  ⟨by decide, rfl⟩

theorem witness_StepRunsDecoded_thumb :
    (State.reset.withFetchWord 16 0x1888).t = true
      ∧ decodeBytes true ((bytesFrom (State.reset.withFetchWord 16 0x1888).pc 2).map (State.reset.withFetchWord 16 0x1888).readByte)
          = .ok (.thumbAddReg 2 1 0, []) :=
  ⟨by decide, rfl⟩

theorem witness_StepRunsDecoded_illegal :
    (at0 0xE1000010 State.reset).t = false
      ∧ okAll (at0 0xE1000010 State.reset) .read (bytesFrom (at0 0xE1000010 State.reset).pc 4) = true
      ∧ ∃ e, decodeArm ((at0 0xE1000010 State.reset).readWord (at0 0xE1000010 State.reset).pc) = .error e :=
  ⟨by decide, by decide, _, rfl⟩

/-- A state with one byte where bus_ok is false in both directions. -/
def hole (a : Word) (s : State) : State := { s with busHoles := [⟨a, a, true, true⟩] }

theorem witness_StepRunsDecoded_hole :
    (hole 0x08000003 State.reset).t = false
      ∧ FirstBad (hole 0x08000003 State.reset) .read (bytesFrom (hole 0x08000003 State.reset).pc 4) 0x08000003 :=
  ⟨by decide, firstBad [0x08000000, 0x08000001, 0x08000002] [] rfl (by decide) (by decide)⟩

/-- A supplied opcode in each state; two that differ above bit 15. -/
theorem witness_StepRunsDecoded_opcode :
    (sys [] []).t = false ∧ decodeCode (.arm 0xE1A00000) = .ok pseudoNop ∧ (∃ e, decodeArm 0xE1000010 = .error e)
      ∧ (start 0x3F 0 [] []).t = true ∧ decodeCode (.thumb ((0xFFFF1888 : Word).extractLsb' 0 16)) = .ok (.thumbAddReg 2 1 0)
      ∧ (0xFFFF1888 : Word).extractLsb' 0 16 = (0x1888 : Word).extractLsb' 0 16 :=
  ⟨by decide, rfl, ⟨_, rfl⟩, by decide, rfl, by decide⟩

theorem witness_PlacedWordRuns :
    State.reset.mem.wf = true ∧ decodeTableWord 32 0xE1A00000 = some pseudoNop
      ∧ decodeTableWord 16 0xDF00 = some (.thumbSwi 0) := by decide

theorem witness_FailedConditionOnlyAdvances :
    (at0 0x07F000F0 State.reset).t = false ∧ State.reset.t = false ∧ passes 0x07F000F0 State.reset.cpsr = false ∧ fetchArm (at0 0x07F000F0 State.reset) = .ok 0x07F000F0
      ∧ passes 0x07F000F0 (at0 0x07F000F0 State.reset).cpsr = false :=
  ⟨by decide, by decide, by decide, rfl, by decide⟩

theorem witness_ThumbExecutionRefused : (start 0x3F 0 [] []).t = true ∧ (Instr.thumbBlLow 0).isThumb = true := by decide

theorem witness_ShifterByImmediate : (0 : BitVec 5) = 0 ∧ (1 : BitVec 5) ≠ 0 ∧ (31 : BitVec 5) ≠ 0 := by decide

/-- The amounts 0 (from 0x100), 1, 31, 32, 33 and 255 of a register-specified shift. -/
theorem witness_ShifterByRegister :
    ((sys [(2, 0x100)] []).reg 2).toNat % 256 = 0
      ∧ ([1, 31, 32, 33, 255] : List Word).all (fun n => ((sys [(2, n)] []).reg 2).toNat % 256 != 0) = true := by decide

theorem witness_LogicalResults :
    ∃ row ∈ logicalRows, row.make = Instr.and ∧ Executes .al (sys [] []) ∧ rsIsPc (.regShift 14 .ror 15) = false ∧ (14 : Reg) ≠ 15 :=
  ⟨_, List.mem_cons_self, rfl, by decide⟩

theorem witness_ArithmeticResults :
    ∃ row ∈ arithmeticRows, row.make = Instr.sub ∧ Executes .al (sys [] []) ∧ rsIsPc (.imm 0 1) = false ∧ (0 : Reg) ≠ 15 :=
  ⟨_, List.mem_cons_self, rfl, by decide⟩

theorem witness_TestResults :
    ∃ row ∈ testRows, row.make = Instr.tst ∧ Executes .al (sys [] []) ∧ rsIsPc (.immShift 0 .lsr 15) = false ∧ (0 : Reg) ≠ 15 :=
  ⟨_, List.mem_cons_self, rfl, by decide⟩

/-- r1 holds a target, r2 a mask that keeps it. -/
def target (v : Word) : State := sys [(1, v), (2, 0xFFF)] []

/-- AND of r1 and r2 with an aligned result, and with the two least misaligned ones. -/
theorem witness_DataToPc :
    ∃ row ∈ logicalRows ++ arithmeticRows, row.make = Instr.and ∧ rsIsPc (.immShift 0 .lsl 2) = false
      ∧ (Executes .al (target 0x100) ∧ Aligned (row.value (firstOperand (.immShift 0 .lsl 2) 1 (target 0x100))
          (shiftOperand (.immShift 0 .lsl 2) (target 0x100)).value (target 0x100).c))
      ∧ (Executes .al (target 0x102) ∧ ¬ Aligned (row.value (firstOperand (.immShift 0 .lsl 2) 1 (target 0x102))
          (shiftOperand (.immShift 0 .lsl 2) (target 0x102)).value (target 0x102).c))
      ∧ (Executes .al (target 0x101) ∧ ¬ Aligned (row.value (firstOperand (.immShift 0 .lsl 2) 1 (target 0x101))
          (shiftOperand (.immShift 0 .lsl 2) (target 0x101)).value (target 0x101).c)) :=
  ⟨_, List.mem_cons_self, rfl, by decide⟩

/-- IRQ mode with a saved word. -/
def irq (saved : Word) (regs : List (Reg × Word)) (words : List (Word × Word)) : State :=
  (start 0x92 0x08000000 regs words).setSlot 33 saved

/-- Whether a target is aligned for the state a saved word restores. -/
abbrev Returns (saved target : Word) : Prop :=
  target.getLsbD 0 = false ∧ (saved.getLsbD 5 = false → target.getLsbD 1 = false)

/-- No SPSR; a saved word that names no mode; a return to ARM state at an aligned and at a misaligned address; a return to THUMB state
at a halfword and at an odd address. The operation is MOV from r14. -/
theorem witness_DataExceptionReturn :
    (Executes .al (sys [] []) ∧ NoSpsr (sys [] [])) ∧ (Executes .al (start 0x10 0 [] []) ∧ NoSpsr (start 0x10 0 [] []))
      ∧ rsIsPc (.immShift 0 .lsl 14) = false
      ∧ (Executes .al (irq 0x00 [] []) ∧ (irq 0x00 [] []).curSpsr = some 0x00 ∧ Mode.ofBits (fieldAt (0x00 : Word) 0 5) = none)
      ∧ (Executes .al (irq 0x10 [(14, 4)] []) ∧ (irq 0x10 [(14, 4)] []).curSpsr = some 0x10
          ∧ Mode.ofBits (fieldAt (0x10 : Word) 0 5) = some .user ∧ Returns 0x10 ((irq 0x10 [(14, 4)] []).reg 14))
      ∧ (Executes .al (irq 0x10 [(14, 2)] []) ∧ (irq 0x10 [(14, 2)] []).curSpsr = some 0x10
          ∧ ¬ Returns 0x10 ((irq 0x10 [(14, 2)] []).reg 14))
      ∧ (Executes .al (irq 0x30 [(14, 2)] []) ∧ (irq 0x30 [(14, 2)] []).curSpsr = some 0x30
          ∧ Mode.ofBits (fieldAt (0x30 : Word) 0 5) = some .user ∧ Returns 0x30 ((irq 0x30 [(14, 2)] []).reg 14))
      ∧ (Executes .al (irq 0x30 [(14, 1)] []) ∧ (irq 0x30 [(14, 1)] []).curSpsr = some 0x30
          ∧ ¬ Returns 0x30 ((irq 0x30 [(14, 1)] []).reg 14)) := by
  decide

theorem witness_DataProcessingStops :
    Executes .al (sys [] []) ∧ rsIsPc (.regShift 15 .lsl 1) = true ∧ rsIsPc (.regShift 14 .lsl 1) = false
      ∧ rsIsPc (.imm 0 0) = false := by decide

theorem witness_MultiplyResults :
    Executes .al (sys [] []) ∧ (0 : Reg) ≠ 15 ∧ (1 : Reg) ≠ 15 ∧ (2 : Reg) ≠ 15 ∧ (0 : Reg) ≠ 1 ∧ (14 : Reg) ≠ 15 := by decide

theorem witness_LongMultiplyResults :
    ∃ row ∈ longMultiplyRows, row.1 = Instr.umull ∧ Executes .al (sys [] []) ∧ (1 : Reg) ≠ 15 ∧ (0 : Reg) ≠ 15 ∧ (2 : Reg) ≠ 15
      ∧ (3 : Reg) ≠ 15 ∧ (1 : Reg) ≠ 0 ∧ (1 : Reg) ≠ 2 ∧ (0 : Reg) ≠ 2 :=
  ⟨_, List.mem_cons_self, rfl, by decide⟩

/-- Each operand of a multiply as r15, Rd = Rm, and the three overlaps of a long multiply. -/
theorem witness_MultiplyStops :
    Executes .al (sys [] []) ∧ ((15 : Reg) = 15 ∨ (0 : Reg) = 15 ∨ (0 : Reg) = 15)
      ∧ (¬ ((1 : Reg) = 15 ∨ (1 : Reg) = 15 ∨ (0 : Reg) = 15 ∨ (0 : Reg) = 15) ∧ (1 : Reg) = 1)
      ∧ (¬ ((1 : Reg) = 15 ∨ (0 : Reg) = 15 ∨ (2 : Reg) = 15 ∨ (3 : Reg) = 15) ∧ ((2 : Reg) = 0 ∨ (2 : Reg) = 2 ∨ (0 : Reg) = 2)) := by
  decide

/-- An offset form with base r15, and a post-indexed byte form whose base is written back. -/
theorem witness_LoadResults :
    (∃ row ∈ loadRows, row.idx = .offset ∧ row.byte = false ∧ Executes .al (sys [] []) ∧ (Offset2.imm 8).usable = true
      ∧ (row.idx.writesBack = true → (15 : Reg) ≠ 15 ∧ (15 : Reg) ≠ 0) ∧ (0 : Reg) ≠ 15
      ∧ okAll (sys [] []) .read (row.bytes (address row.idx true ((sys [] []).reg 15) ((Offset2.imm 8).value (sys [] [])))) = true)
    ∧ (∃ row ∈ loadRows, row.idx = .post ∧ row.byte = true ∧ (Offset2.reg 0 .ror 14).usable = true
      ∧ (row.idx.writesBack = true → (1 : Reg) ≠ 15 ∧ (1 : Reg) ≠ 0)
      ∧ okAll (sys [] []) .read (row.bytes (address row.idx false ((sys [] []).reg 1) ((Offset2.reg 0 .ror 14).value (sys [] [])))) = true) :=
  ⟨⟨loadRows.get ⟨0, by decide⟩, List.get_mem _ _, by decide⟩, ⟨loadRows.get ⟨7, by decide⟩, List.get_mem _ _, by decide⟩⟩

/-- r1 points to a word. -/
def points (v : Word) : State := sys [(1, 0x2000)] [(0x2000, v)]

/-- A loaded word that is aligned, and one that is not. -/
theorem witness_LoadToPc :
    ∃ row ∈ loadRows, row.byte = false ∧ (Offset2.imm 0).usable = true ∧ (row.idx.writesBack = true → (1 : Reg) ≠ 15)
      ∧ (Executes .al (points 0x08000040)
        ∧ okAll (points 0x08000040) .read (row.bytes (address row.idx true ((points 0x08000040).reg 1) 0)) = true
        ∧ Aligned ((points 0x08000040).loadRotated (address row.idx true ((points 0x08000040).reg 1) 0)))
      ∧ (Executes .al (points 0x08000042)
        ∧ okAll (points 0x08000042) .read (row.bytes (address row.idx true ((points 0x08000042).reg 1) 0)) = true
        ∧ ¬ Aligned ((points 0x08000042).loadRotated (address row.idx true ((points 0x08000042).reg 1) 0))) :=
  ⟨loadRows.get ⟨0, by decide⟩, List.get_mem _ _, by decide⟩

/-- STR of r15, and STRBT at the top of the address space. -/
theorem witness_StoreResults :
    (∃ row ∈ storeRows, row.byte = false ∧ Executes .al (sys [] []) ∧ (Offset2.imm 0).usable = true
      ∧ (row.idx.writesBack = true → (1 : Reg) ≠ 15) ∧ (row.byte = true → (15 : Reg) ≠ 15) ∧ (sys [] []).mem.wf = true
      ∧ okAll (sys [] []) .write (row.bytes (address row.idx true ((sys [] []).reg 1) ((Offset2.imm 0).value (sys [] [])))) = true)
    ∧ (∃ row ∈ storeRows, row.byte = true ∧ row.idx.writesBack = true ∧ Executes .al (sys [(1, 0xFFFFFFFF)] [])
      ∧ (Offset2.imm 1).usable = true ∧ (1 : Reg) ≠ 15 ∧ (0 : Reg) ≠ 15 ∧ (sys [(1, 0xFFFFFFFF)] []).mem.wf = true
      ∧ okAll (sys [(1, 0xFFFFFFFF)] []) .write (row.bytes (address row.idx true ((sys [(1, 0xFFFFFFFF)] []).reg 1)
          ((Offset2.imm 1).value (sys [(1, 0xFFFFFFFF)] [])))) = true) :=
  ⟨⟨storeRows.get ⟨0, by decide⟩, List.get_mem _ _, by decide⟩, ⟨storeRows.get ⟨7, by decide⟩, List.get_mem _ _, by decide⟩⟩

/-- A base in r1. -/
def base (v : Word) : State := sys [(1, v)] []

/-- A halfword at an even address; a signed byte, whose address may be odd. -/
theorem witness_HalfwordLoadResults :
    (∃ row ∈ halfLoadRows, row.half = true ∧ Executes .al (base 0x2001) ∧ Index.pre ≠ .postW ∧ (Offset3.imm 0xFF).usable = true
      ∧ (Index.pre.writesBack = true → (1 : Reg) ≠ 15 ∧ (1 : Reg) ≠ 0) ∧ (0 : Reg) ≠ 15
      ∧ (row.half = true →
          (address .pre true ((base 0x2001).reg 1) ((Offset3.imm 0xFF).value (base 0x2001))).getLsbD 0 = false)
      ∧ okAll (base 0x2001) .read
          (row.bytes (address .pre true ((base 0x2001).reg 1) ((Offset3.imm 0xFF).value (base 0x2001)))) = true)
    ∧ (∃ row ∈ halfLoadRows, row.half = false ∧ Executes .al (base 0x2001) ∧ Index.offset ≠ .postW
      ∧ (Index.offset.writesBack = true → (1 : Reg) ≠ 15 ∧ (1 : Reg) ≠ 0) ∧ (0 : Reg) ≠ 15 ∧ (Offset3.imm 0).usable = true
      ∧ (row.half = true → (address .offset true ((base 0x2001).reg 1) ((Offset3.imm 0).value (base 0x2001))).getLsbD 0 = false)
      ∧ okAll (base 0x2001) .read
          (row.bytes (address .offset true ((base 0x2001).reg 1) ((Offset3.imm 0).value (base 0x2001)))) = true) :=
  ⟨⟨halfLoadRows.get ⟨0, by decide⟩, List.get_mem _ _, by decide⟩, ⟨halfLoadRows.get ⟨1, by decide⟩, List.get_mem _ _, by decide⟩⟩

theorem witness_HalfwordStoreResults :
    Executes .al (base 0xFFFFFFFE) ∧ Index.post ≠ .postW ∧ (Offset3.reg 14).usable = true
      ∧ (Index.post.writesBack = true → (1 : Reg) ≠ 15) ∧ (0 : Reg) ≠ 15 ∧ (base 0xFFFFFFFE).mem.wf = true
      ∧ (address .post true ((base 0xFFFFFFFE).reg 1) ((Offset3.reg 14).value (base 0xFFFFFFFE))).getLsbD 0 = false
      ∧ okAll (base 0xFFFFFFFE) .write
          (halfBytes (address .post true ((base 0xFFFFFFFE).reg 1) ((Offset3.reg 14).value (base 0xFFFFFFFE)))) = true := by
  decide

/-- Rd = Rm, the exchange. -/
theorem witness_SwapResults :
    Executes .al (base 0x2003) ∧ (1 : Reg) ≠ 15 ∧ (0 : Reg) ≠ 15 ∧ (1 : Reg) ≠ 0 ∧ (base 0x2003).mem.wf = true
      ∧ okAll (base 0x2003) .read (wordBytes ((base 0x2003).reg 1)) = true
      ∧ okAll (base 0x2003) .write (wordBytes ((base 0x2003).reg 1)) = true
      ∧ okAll (base 0x2003) .read (byteBytes ((base 0x2003).reg 1)) = true
      ∧ okAll (base 0x2003) .write (byteBytes ((base 0x2003).reg 1)) = true := by decide

theorem witness_TransferStops :
    Executes .al (sys [] []) ∧ (Offset2.reg 0 .lsl 15).usable = false ∧ (Offset2.reg 0 .lsl 14).usable = true
      ∧ (∃ row ∈ loadRows, row.idx.writesBack = true ∧ row.byte = true) ∧ (∃ row ∈ storeRows, row.idx.writesBack = true ∧ row.byte = true)
      ∧ (1 : Reg) ≠ 15 ∧ (1 : Reg) = 1 :=
  ⟨by decide, by decide, by decide, ⟨loadRows.get ⟨7, by decide⟩, List.get_mem _ _, by decide⟩,
    ⟨storeRows.get ⟨7, by decide⟩, List.get_mem _ _, by decide⟩, by decide, rfl⟩

theorem witness_HalfwordStops :
    Executes .al (base 0x2000) ∧ (Offset3.reg 15).usable = false ∧ (Offset3.reg 14).usable = true ∧ Index.pre ≠ .postW
      ∧ Index.pre.writesBack = true ∧ Index.offset.writesBack = false ∧ (1 : Reg) ≠ 15 ∧ (1 : Reg) ≠ 0
      ∧ (address .offset true ((base 0x2000).reg 1) ((Offset3.imm 1).value (base 0x2000))).getLsbD 0 = true
      ∧ (∃ row ∈ halfLoadRows, row.half = true ∧ row.rdPc ≠ .strhOfPc) :=
  ⟨by decide, by decide, by decide, by decide, by decide, by decide, by decide, by decide, by decide,
    halfLoadRows.get ⟨0, by decide⟩, List.get_mem _ _, by decide⟩

theorem witness_SwapStops :
    Executes .al (sys [] []) ∧ ((15 : Reg) = 15 ∨ (0 : Reg) = 15 ∨ (0 : Reg) = 15)
      ∧ (¬ ((1 : Reg) = 15 ∨ (1 : Reg) = 15 ∨ (0 : Reg) = 15) ∧ ((1 : Reg) = 1 ∨ (1 : Reg) = 0))
      ∧ (¬ ((1 : Reg) = 15 ∨ (0 : Reg) = 15 ∨ (1 : Reg) = 15) ∧ ((1 : Reg) = 0 ∨ (1 : Reg) = 1)) := by decide

theorem witness_WordLoadRotates : 0 < 4 ∧ 3 < 4 ∧ 0 < 2 ∧ 1 < 2 := by decide

/-- The highest register of a list, and the list 0x8001 whose ends are r0 and r15. -/
theorem witness_BlockRange :
    (∀ q : Reg, (0x8001 : BitVec 16).getLsbD q.val = true → q ≤ 15) ∧ (0x8001 : BitVec 16).getLsbD (15 : Reg).val = true
      ∧ (0x8001 : BitVec 16).getLsbD (0 : Reg).val = true := by decide

/-- Writeback with the base outside the list; no writeback with the base in it; the whole list r0..r14. -/
theorem witness_LdmResults :
    ∃ row ∈ ldmRows, Executes .al (sys [] []) ∧ (0x7FFF : BitVec 16) ≠ 0 ∧ (0 : Reg) ≠ 15 ∧ (0x7FFF : BitVec 16).getLsbD 15 = false
      ∧ (false = true → (0x7FFF : BitVec 16).getLsbD (0 : Reg).val = false)
      ∧ (true = true → (0x7FFE : BitVec 16).getLsbD (0 : Reg).val = false)
      ∧ okAll (sys [] []) .read (blockBytes row.1 ((sys [] []).reg 0) 0x7FFF) = true :=
  ⟨_, List.mem_cons_self, by decide⟩

/-- r0 points to a block whose second word is `v`. -/
def block (v : Word) : State := sys [(0, 0x1000)] [(0x1004, v)]

theorem witness_LdmToPc :
    ∃ row ∈ ldmRows, (0 : Reg) ≠ 15 ∧ (0x8002 : BitVec 16).getLsbD 15 = true
      ∧ (true = true → (0x8002 : BitVec 16).getLsbD (0 : Reg).val = false)
      ∧ (Executes .al (block 0x8000040) ∧ okAll (block 0x8000040) .read (blockBytes row.1 ((block 0x8000040).reg 0) 0x8002) = true
        ∧ Aligned ((block 0x8000040).readWord (wordAddress row.1 ((block 0x8000040).reg 0) 0x8002 15)))
      ∧ (Executes .al (block 0x8000042) ∧ okAll (block 0x8000042) .read (blockBytes row.1 ((block 0x8000042).reg 0) 0x8002) = true
        ∧ ¬ Aligned ((block 0x8000042).readWord (wordAddress row.1 ((block 0x8000042).reg 0) 0x8002 15))) :=
  ⟨_, List.mem_cons_self, by decide⟩

/-- The base as the lowest register of the list with writeback, and r15 in the list. -/
theorem witness_StmResults :
    ∃ row ∈ stmRows, Executes .al (sys [] []) ∧ (0x8003 : BitVec 16) ≠ 0 ∧ (0 : Reg) ≠ 15
      ∧ ¬ (true = true ∧ (0x8003 : BitVec 16).getLsbD (0 : Reg).val = true ∧ ∃ q : Reg, q < 0 ∧ (0x8003 : BitVec 16).getLsbD q.val = true)
      ∧ (sys [] []).mem.wf = true ∧ okAll (sys [] []) .write (blockBytes row.1 ((sys [] []).reg 0) 0x8003) = true :=
  ⟨_, List.mem_cons_self, by decide⟩

/-- IRQ mode with a saved word and a stack whose second word is `v`. -/
def frame (saved v : Word) : State := irq saved [(13, 0x3000)] [(0x3004, v)]

/-- The word a frame loads for the PC. -/
def framePc (saved v : Word) : Word := (frame saved v).readWord (wordAddress .ia ((frame saved v).reg 13) 0x8001 15)

/-- No SPSR; a saved word that names no mode; a PC that is aligned for the state restored, and one that is not. -/
theorem witness_LdmExceptionReturn :
    (13 : Reg) ≠ 15 ∧ (0x8001 : BitVec 16).getLsbD 15 = true ∧ (true = true → (0x8001 : BitVec 16).getLsbD (13 : Reg).val = false)
      ∧ (Executes .al (sys [] []) ∧ NoSpsr (sys [] []))
      ∧ (Executes .al (frame 0x00 0) ∧ (frame 0x00 0).curSpsr = some 0x00 ∧ Mode.ofBits (fieldAt (0x00 : Word) 0 5) = none
        ∧ okAll (frame 0x00 0) .read (blockBytes .ia ((frame 0x00 0).reg 13) 0x8001) = true)
      ∧ (Executes .al (frame 0x10 0x8000) ∧ (frame 0x10 0x8000).curSpsr = some 0x10
        ∧ Mode.ofBits (fieldAt (0x10 : Word) 0 5) = some .user ∧ Returns 0x10 (framePc 0x10 0x8000)
        ∧ okAll (frame 0x10 0x8000) .read (blockBytes .ia ((frame 0x10 0x8000).reg 13) 0x8001) = true)
      ∧ (Executes .al (frame 0x10 0x8002) ∧ (frame 0x10 0x8002).curSpsr = some 0x10 ∧ ¬ Returns 0x10 (framePc 0x10 0x8002)
        ∧ okAll (frame 0x10 0x8002) .read (blockBytes .ia ((frame 0x10 0x8002).reg 13) 0x8001) = true)
      ∧ Returns 0x30 (framePc 0x30 0x8002) := by
  decide

theorem witness_UserBankResults :
    Executes .al (start 0x11 0 [] []) ∧ ¬ NoSpsr (start 0x11 0 [] []) ∧ (0x0100 : BitVec 16) ≠ 0 ∧ (0 : Reg) ≠ 15
      ∧ (0x0100 : BitVec 16).getLsbD 15 = false ∧ okAll (start 0x11 0 [] []) .read (blockBytes .ia 0 0x0100) = true
      ∧ (start 0x11 0 [] []).mem.wf = true ∧ okAll (start 0x11 0 [] []) .write (blockBytes .ia 0 0x8100) = true := by decide

theorem witness_BlockStops :
    Executes .al (sys [] []) ∧ (0 : BitVec 16) = 0 ∧ (0x8000 : BitVec 16) ≠ 0 ∧ (14 : Reg) ≠ 15
      ∧ (0x0003 : BitVec 16).getLsbD (1 : Reg).val = true ∧ (∃ q : Reg, q < 1 ∧ (0x0003 : BitVec 16).getLsbD q.val = true)
      ∧ NoSpsr (sys [] []) ∧ NoSpsr (start 0x10 0 [] []) := by decide

/-- A branch from a word-aligned PC, and from a misaligned one that a driver wrote. -/
theorem witness_BranchResults : Executes .al (sys [] []) ∧ Aligned (sys [] []).pc ∧ Executes .al (start 0x1F 2 [] []) := by decide

/-- ARM and THUMB targets, and a misaligned ARM one. -/
theorem witness_BranchExchangeResults :
    (Executes .al (base 0x8000100) ∧ fieldAt ((base 0x8000100).reg 1) 0 2 ≠ 2)
      ∧ (Executes .al (base 0x8000103) ∧ fieldAt ((base 0x8000103).reg 1) 0 2 ≠ 2)
      ∧ (Executes .al (base 0x8000102) ∧ fieldAt ((base 0x8000102).reg 1) 0 2 = 2) := by decide

theorem witness_MrsResults :
    Executes .al (irq 0x10 [] []) ∧ (14 : Reg) ≠ 15 ∧ spsrSlot (irq 0x10 [] []).mode = some 33 ∧ NoSpsr (sys [] []) := by decide

theorem inv_sys : (sys [] []).Inv := ⟨by decide, by decide, by decide, by decide⟩
theorem inv_user : (start 0x10 0x08000000 [] []).Inv := ⟨by decide, by decide, by decide, by decide⟩
theorem inv_irq : (irq 0x10 [] []).Inv := ⟨by decide, by decide, by decide, by decide⟩

/-- In System mode: T written as 1, T written as 0 with a mode that is none and with one; in User mode the control byte is kept. -/
theorem witness_MsrCpsrResults :
    Executes .al (sys [] []) ∧ (sys [] []).Inv ∧ Executes .al (start 0x10 0x08000000 [] []) ∧ (start 0x10 0x08000000 [] []).Inv
      ∧ msrWrites true 1 5 = true ∧ (0x3F : Word).getLsbD 5 = true ∧ (0x00 : Word).getLsbD 5 = false
      ∧ Mode.ofBits (fieldAt (0x00 : Word) 0 5) = none ∧ Mode.ofBits (fieldAt (0xD3 : Word) 0 5) = some .supervisor
      ∧ msrWrites false 9 5 = false ∧ Mode.ofBits Mode.user.bits = some .user ∧ (0 : Reg) ≠ 15 :=
  ⟨by decide, inv_sys, by decide, inv_user, by decide, by decide, by decide, by decide, by decide, by decide, by decide, by decide⟩

theorem witness_MsrSpsrResults :
    Executes .al (irq 0x10 [] []) ∧ (irq 0x10 [] []).Inv ∧ spsrSlot (irq 0x10 [] []).mode = some 33
      ∧ Executes .al (sys [] []) ∧ (sys [] []).Inv ∧ NoSpsr (sys [] []) ∧ (0 : Reg) ≠ 15 :=
  ⟨by decide, inv_irq, by decide, by decide, inv_sys, by decide, by decide⟩

theorem witness_ExceptionEntry : psrReserved (sys [] []).cpsr = 0 := by decide

/-- A word in place at the PC under TRAP_POLICY = Enter. -/
def entering (word : Word) : State := { at0 word (sys [] []) with trapPolicy := .enter }

theorem witness_TrapsEnter :
    Executes .al (entering 0xE1000010) ∧ (entering 0xE1000010).trapPolicy = .enter ∧ (∃ e, decodeArm 0xE1000010 = .error e)
      ∧ condOf 0xE1000010 = .al ∧ fetchArm (entering 0xE1000010) = .ok 0xE1000010 :=
  ⟨by decide, rfl, ⟨_, rfl⟩, by decide, rfl⟩

/-- What the statement asks of a word and the state it stands in. -/
abbrev Fetched (w : Word) : Prop :=
  (at0 w (sys [] [])).t = false ∧ fetchArm (at0 w (sys [] [])) = .ok w ∧ passes w (at0 w (sys [] [])).cpsr = true
    ∧ (at0 w (sys [] [])).trapPolicy = .report

/-- A software interrupt, a word of the Undefined family, a coprocessor word and an illegal word. -/
theorem witness_TrapsReport :
    (Fetched 0xEF000012 ∧ classifyArm 0xEF000012 = .softwareInterrupt) ∧ (Fetched 0xE7F000F0 ∧ classifyArm 0xE7F000F0 = .undefined)
      ∧ (Fetched 0xEE000000 ∧ classifyArm 0xEE000000 = .unmatched) ∧ (Fetched 0xE1000010 ∧ ∃ e, decodeArm 0xE1000010 = .error e) :=
  ⟨⟨⟨by decide, rfl, by decide, rfl⟩, by decide⟩, ⟨⟨by decide, rfl, by decide, rfl⟩, by decide⟩,
    ⟨⟨by decide, rfl, by decide, rfl⟩, by decide⟩, ⟨⟨by decide, rfl, by decide, rfl⟩, _, rfl⟩⟩

/-- The second byte of a word and of a block as the first bad one; a swap whose read is good and whose write is bad. -/
theorem witness_BusErrorStops :
    Executes .al (hole 0x2001 (sys [] [])) ∧ FirstBad (hole 0x2001 (sys [] [])) .read (wordBytes 0x2000) 0x2001
      ∧ FirstBad (hole 0x2001 (sys [] [])) .write (wordBytes 0x2000) 0x2001
      ∧ FirstBad (hole 0x2001 (sys [] [])) .read (halfBytes 0x2000) 0x2001
      ∧ FirstBad (hole 0x2001 (sys [] [])) .write (halfBytes 0x2000) 0x2001
      ∧ FirstBad (hole 0x2001 (sys [] [])) .read (byteBytes 0x2001) 0x2001
      ∧ (okAll { sys [] [] with busHoles := [⟨0x2001, 0x2001, false, true⟩] } .read (wordBytes 0x2000) = true
        ∧ FirstBad { sys [] [] with busHoles := [⟨0x2001, 0x2001, false, true⟩] } .write (wordBytes 0x2000) 0x2001)
      ∧ FirstBad (hole 0x2001 (sys [] [])) .read (blockBytes .ib 0x1FF8 0x8001) 0x2001
      ∧ FirstBad (hole 0x2001 (irq 0x10 [] [])) .write (blockBytes .ib 0x1FF8 0x8001) 0x2001 ∧ ¬ NoSpsr (hole 0x2001 (irq 0x10 [] [])) :=
  ⟨by decide, firstBad [0x2000] [0x2002, 0x2003] rfl (by decide) (by decide),
    firstBad [0x2000] [0x2002, 0x2003] rfl (by decide) (by decide), firstBad [0x2000] [] rfl (by decide) (by decide),
    firstBad [0x2000] [] rfl (by decide) (by decide), firstBad [] [] rfl (by decide) (by decide),
    ⟨by decide, firstBad [0x2000] [0x2002, 0x2003] rfl (by decide) (by decide)⟩,
    firstBad [0x1FFC, 0x1FFD, 0x1FFE, 0x1FFF, 0x2000] [0x2002, 0x2003] rfl (by decide) (by decide),
    firstBad [0x1FFC, 0x1FFD, 0x1FFE, 0x1FFF, 0x2000] [0x2002, 0x2003] rfl (by decide) (by decide), by decide⟩

/-- The invariant holds in a state from which a step ends with Next. -/
theorem witness_StepKeepsInvariant :
    (at0 0xE1A00000 State.reset).Inv ∧ done (step (at0 0xE1A00000 State.reset)) (fun _ => true) = true
      ∧ done (stepOpcode (at0 0xE1A00000 State.reset) 0xE3A00005) (fun _ => true) = true :=
  ⟨⟨by decide, by decide, by decide, by decide⟩, by decide, by decide⟩

theorem witness_StepKeepsParameters :
    done (step (at0 0xE0100291 { State.reset with mulsCPolicy := .draw })) (fun t => t.draws == 1) = true
      ∧ State.reset.mulsCPolicy = .unchanged := by decide

theorem witness_UserModeConfined :
    (at0 0xE129F000 (start 0x10 0x08000000 [] [])).mode = .user
      ∧ done (step (at0 0xE129F000 (start 0x10 0x08000000 [] []))) (fun _ => true) = true
      ∧ done (step (at0 0xEF000000 { start 0x10 0x08000000 [] [] with trapPolicy := .enter })) (fun t => t.mode == .supervisor) = true := by
  decide

theorem witness_ThumbStateReached :
    done (exec (.bx .al 0) (sys [(0, 1)] [])) (fun t => t.t) = true
      ∧ done (exec (.mov .al true 0 15 (.immShift 0 .lsl 14)) (irq 0x30 [(14, 2)] [])) (fun t => t.t) = true := by decide

theorem witness_FlagsWrittenOnlyBy :
    done (exec (.ldr .al .offset true 1 0 (.imm 0)) (sys [] [])) (fun _ => true) = true
      ∧ (Instr.ldr .al .offset true 1 0 (.imm 0)).writesFlags = false ∧ (Instr.ldr .al .offset true 1 0 (.imm 0)).returns = false := by
  decide

theorem witness_OnlyTransfersTouchMemory : (Instr.b .al 0).touchesMemory = false ∧ (Instr.swi .al 0).touchesMemory = false := by decide

theorem witness_MemoryReadsBack :
    (sys [] [(0x2000, 5)]).mem.wf = true ∧ Memory.wf [(0x2000, 5)] = true ∧ (sys [] [(0x2000, 5)]).mem = [(0x2000, 5)] := by decide

theorem witness_ResetEstablishes :
    (({ ResetParams.chosen with mode := .user } : ResetParams).mode = .user ∨ ¬ Aligned ResetParams.chosen.pc)
      ∧ ¬ Aligned ({ ResetParams.chosen with pc := 0x08000002 } : ResetParams).pc
      ∧ ResetParams.chosen.mode ≠ .user ∧ Aligned ResetParams.chosen.pc := by decide

theorem witness_BanksKeptApart : Mode.irq.spSlot ≠ Mode.user.spSlot := by decide

theorem witness_ExceptionEntry_masks :
    ((ExceptionKind.irq = .irq ∧ (start 0x92 0 [] []).cpsr.getLsbD 7 = true) ∨ (ExceptionKind.irq = .fiq ∧ (start 0x92 0 [] []).cpsr.getLsbD 6 = true))
      ∧ (start 0x12 0 [] []).cpsr.getLsbD 7 = false := by decide

end Sys2Proof.Tests
end

section
/-! PROOFS of the family 00_scope: byte order and word loads (R14, R83, R86 to R88), the step and its decoder (R16, R95, R175, R411),
and the parameters no step writes (R11, R80). -/

namespace Sys2Proof.Machine

/-! ## Bytes, addresses and rotation -/

theorem bytesFrom_two (a : Word) : bytesFrom a 2 = [a, a + 1] := rfl

theorem bytesFrom_four (a : Word) : bytesFrom a 4 = [a, a + 1, a + 2, a + 3] := by
  have h2 : a + 1 + 1 = a + 2 := by bv_omega
  have h3 : a + 2 + 1 = a + 3 := by bv_omega
  simp only [bytesFrom, h2, h3]

/-- Above its lowest byte `y`, byte `i + 1` of `x ++ y` is byte `i` of `x`. -/
theorem fieldAt_append_succ {n : Nat} (x : BitVec n) (y : Byte) (i : Nat) :
    fieldAt (x ++ y) (8 * (i + 1)) 8 = fieldAt x (8 * i) 8 := by
  apply BitVec.eq_of_getLsbD_eq
  intro j hj
  rw [getLsbD_fieldAt, getLsbD_fieldAt, BitVec.getLsbD_append, if_neg (by omega)]
  congr 2
  omega

theorem fieldAt_append_zero {n : Nat} (x : BitVec n) (y : Byte) : fieldAt (x ++ y) 0 8 = y := by
  apply BitVec.eq_of_getLsbD_eq
  intro j hj
  rw [getLsbD_fieldAt, BitVec.getLsbD_append, if_pos (by omega)]
  simp [hj]

theorem fieldAt_byte (b : Byte) : fieldAt b 0 8 = b := BitVec.extractLsb'_eq_self

/-- Byte `i` of a halfword is at its address plus `i` (R83). -/
theorem State.byte_readHalf (s : State) (a : Word) {i : Nat} (hi : i < 2) :
    fieldAt (s.readHalf a) (8 * i) 8 = s.readByte (a + BitVec.ofNat 32 i) := by
  unfold State.readHalf halfOfBytes
  match i, hi with
  | 0, _ => simpa using fieldAt_append_zero _ _
  | 1, _ => exact (fieldAt_append_succ _ _ 0).trans (fieldAt_byte _)

/-- Byte `i` of a word is at its address plus `i` (R83). -/
theorem State.byte_readWord (s : State) (a : Word) {i : Nat} (hi : i < 4) :
    fieldAt (s.readWord a) (8 * i) 8 = s.readByte (a + BitVec.ofNat 32 i) := by
  unfold State.readWord wordOfBytes
  match i, hi with
  | 0, _ => simpa using fieldAt_append_zero _ _
  | 1, _ => exact (fieldAt_append_succ _ _ 0).trans (fieldAt_append_zero _ _)
  | 2, _ =>
    rw [fieldAt_append_succ _ _ 1, fieldAt_append_succ _ _ 0]
    exact fieldAt_append_zero _ _
  | 3, _ =>
    rw [fieldAt_append_succ _ _ 2, fieldAt_append_succ _ _ 1, fieldAt_append_succ _ _ 0]
    exact fieldAt_byte _

/-- Rotating a word right by `k` bytes moves byte `(k + i) mod 4` to byte `i`. -/
theorem fieldAt_rotateRight_bytes (w : Word) {k i : Nat} (hk : k < 4) (hi : i < 4) :
    fieldAt (w.rotateRight (8 * k)) (8 * i) 8 = fieldAt w (8 * ((k + i) % 4)) 8 := by
  apply BitVec.eq_of_getLsbD_eq
  intro j hj
  rw [getLsbD_fieldAt, getLsbD_fieldAt, BitVec.getLsbD_rotateRight, Nat.mod_eq_of_lt (show 8 * k < 32 by omega)]
  by_cases hlt : k + i < 4
  · rw [decide_eq_true (show 8 * i + j < 32 - 8 * k by omega), Nat.mod_eq_of_lt hlt, cond_true]
    congr 2
    omega
  · have hmod : (k + i) % 4 = k + i - 4 := by omega
    rw [decide_eq_false (show ¬ 8 * i + j < 32 - 8 * k by omega), decide_eq_true (show 8 * i + j < 32 by omega), hmod, cond_false,
      Bool.true_and]
    congr 2
    omega

/-- Byte `i` of a loaded word is byte `(address + i) mod 4` of the aligned word (R87). -/
theorem State.byte_loadRotated (s : State) (a : Word) {i : Nat} (hi : i < 4) :
    fieldAt (s.loadRotated a) (8 * i) 8 = s.readByte (align4 a + BitVec.ofNat 32 ((a.toNat + i) % 4)) := by
  have hk : (fieldAt a 0 2).toNat = a.toNat % 4 := by simp [toNat_fieldAt]
  rw [State.loadRotated, hk, fieldAt_rotateRight_bytes _ (Nat.mod_lt _ (by decide)) hi, Nat.mod_add_mod,
    State.byte_readWord _ _ (Nat.mod_lt _ (by decide))]

/-- Settles O34: each byte of an access by its address, and a word load as a rotation by whole bytes. -/
theorem wordLoadRotates : Obligations.WordLoadRotates := by
  intro s a
  exact ⟨rfl, bytesFrom_four _, bytesFrom_two _, rfl, fun _ => s.byte_readWord a, fun _ => s.byte_readHalf a,
    fun _ => s.byte_loadRotated a⟩

/-! ## The parameters -/

theorem SameParams.trans {s x t : State} (h : SameParams s x) (h' : SameParams x t) : SameParams s t :=
  ⟨h'.pcReadModel.trans h.pcReadModel, h'.mulsCPolicy.trans h.mulsCPolicy, h'.trapPolicy.trans h.trapPolicy,
    h'.busHoles.trans h.busHoles⟩

theorem setSpsr_sameParams (s : State) (v : Word) : SameParams s (s.setSpsr v) :=
  ⟨s.setSpsr_pcReadModel v, s.setSpsr_mulsCPolicy v, s.setSpsr_trapPolicy v, s.setSpsr_busHoles v⟩

theorem enterException_sameParams (kind : ExceptionKind) (s : State) : SameParams s (enterException kind s) :=
  ⟨by simp [enterException], by simp [enterException], by simp [enterException], by simp [enterException]⟩

@[simp] theorem enterException_draws (kind : ExceptionKind) (s : State) : (enterException kind s).draws = s.draws := by
  simp [enterException]

/-- The updates of an instruction never lower the count of free flag values (log entry 6). -/
theorem Upd.draws_le {i : Instr} {s x : State} (h : Upd i s x) : s.draws ≤ x.draws := by
  induction h with
  | start => exact Nat.le_refl _
  | draw _ _ ih => exact Nat.le_succ_of_le ih
  | reg _ _ _ _ ih | userReg _ _ _ _ _ ih | flags _ _ _ _ _ _ ih | byte _ _ _ _ ih => exact ih

/-- No free flag value is drawn under MULS_C_POLICY = Unchanged (R331). -/
theorem Upd.draws_eq {i : Instr} {s x : State} (h : Upd i s x) (hp : s.mulsCPolicy = .unchanged) : x.draws = s.draws := by
  induction h with
  | start => rfl
  | draw _ hd _ => cases hp.symm.trans hd
  | reg _ _ _ _ ih | userReg _ _ _ _ _ ih | flags _ _ _ _ _ _ ih | byte _ _ _ _ ih => exact ih

/-- However an instruction ends, its ending touches neither a parameter nor the count of free flag values: only its updates may. -/
theorem Ending.after_updates {i : Instr} {s t : State} (h : Ending i s t) :
    ∃ x, Upd i s x ∧ SameParams x t ∧ t.draws = x.draws := by
  cases h with
  | advance hx | jump _ hx _ | restore _ _ _ hx _ _ _ _ => exact ⟨_, hx, ⟨rfl, rfl, rfl, rfl⟩, rfl⟩
  | exchange | psr | psrMode => exact ⟨s, .start, ⟨rfl, rfl, rfl, rfl⟩, rfl⟩
  | spsr v _ => exact ⟨s, .start, (setSpsr_sameParams s v).trans ⟨rfl, rfl, rfl, rfl⟩, s.setSpsr_draws v⟩
  | trap kind _ _ => exact ⟨s, .start, enterException_sameParams kind s, enterException_draws kind s⟩

/-- Every next state of a step is an instruction's ending; an illegal word ends as the Undefined family does (R411). -/
theorem steps_ending {s t : State} (h : Steps s t) : ∃ i, Ending i s t := by
  obtain ⟨i, h⟩ | ⟨w, h⟩ := steps_next h
  · exact ⟨i, exec_next h⟩
  · exact ⟨.und .al 0 0, .ofUndefined h⟩

/-- Settles O53, through the endings of every instruction. -/
theorem stepKeepsParameters : Obligations.StepKeepsParameters := by
  intro s t h
  obtain ⟨i, h⟩ := steps_ending h
  obtain ⟨x, hx, hparams, hdraws⟩ := h.after_updates
  rw [hdraws]
  exact ⟨hx.kept.params.trans hparams, hx.draws_le, hx.draws_eq⟩

/-! ## The step and its decoder -/

theorem stepOpcode_thumb {s : State} {opcode : Word} {i : Instr} (ht : s.t = true)
    (h : decodeThumb (fieldAt opcode 0 16) = .ok i) : stepOpcode s opcode = exec i s := by
  simp only [stepOpcode, ht, if_true, h]

theorem stepOpcode_arm {s : State} {opcode : Word} {i : Instr} (ht : s.t = false) (h : decodeArm opcode = .ok i) :
    stepOpcode s opcode = exec i s := by
  simp only [stepOpcode, ht, Bool.false_eq_true, if_false, h]

theorem stepOpcode_illegal {s : State} {opcode : Word} {e : DecodeError} (ht : s.t = false) (h : decodeArm opcode = .error e) :
    stepOpcode s opcode = illegalWord opcode s := by
  simp only [stepOpcode, ht, Bool.false_eq_true, if_false, h]

/-- In THUMB state only the low 16 bits of an opcode matter (R110). -/
theorem stepOpcode_low {s : State} {a b : Word} (ht : s.t = true) (h : fieldAt a 0 16 = fieldAt b 0 16) :
    stepOpcode s a = stepOpcode s b := by
  simp only [stepOpcode, ht, if_true, h]

theorem stepOpcode_decoded {s : State} {opcode : Word} {i : Instr}
    (h : decodeCode (if s.t then .thumb (fieldAt opcode 0 16) else .arm opcode) = .ok i) : stepOpcode s opcode = exec i s := by
  cases ht : s.t with
  | true =>
    rw [ht, if_pos rfl] at h
    exact stepOpcode_thumb ht h
  | false =>
    rw [ht, if_neg Bool.false_ne_true] at h
    exact stepOpcode_arm ht h

theorem fetchArm_ok {s : State} (h : BusOk s .read (bytesFrom s.pc 4)) : fetchArm s = .ok (s.readWord s.pc) := by
  have hnone : (bytesFrom s.pc 4).find? (fun a => !s.busOk a .read) = none := by
    rw [List.find?_eq_none]
    intro a ha
    simp [h a ha]
  simp only [fetchArm, hnone]

theorem fetchArm_bad {s : State} {a : Word} (h : FirstBad s .read (bytesFrom s.pc 4) a) :
    fetchArm s = .error (.fetchBusError a) := by
  simp only [fetchArm, find_firstBad h]

/-- The loop's step is that of the CORE with the opcode at the PC (R95). -/
theorem step_eq_stepOpcode {s : State} (h : s.t = false → BusOk s .read (bytesFrom s.pc 4)) :
    step s = stepOpcode s (if s.t then (s.readHalf s.pc).setWidth 32 else s.readWord s.pc) := by
  cases ht : s.t with
  | true => simp only [step, ht, if_true, fetchThumb]
  | false => simp only [step, ht, Bool.false_eq_true, if_false, fetchArm_ok (h ht)]

theorem step_fetchBusError {s : State} {a : Word} (ht : s.t = false) (h : FirstBad s .read (bytesFrom s.pc 4) a) :
    step s = .fault (.fetchBusError a) := by
  simp only [step, ht, Bool.false_eq_true, if_false, fetchArm_bad h]

theorem fieldAt_setWidth_half (h : Half) : fieldAt (h.setWidth 32 : Word) 0 16 = h := by
  apply BitVec.eq_of_getLsbD_eq
  intro j hj
  rw [getLsbD_fieldAt, BitVec.getLsbD_setWidth]
  simp [hj, show j < 32 by omega]

/-- The bytes at an address, four in ARM state and two in THUMB state, are those of the opcode a fetch reads there (R83, R110). -/
theorem takeCode_fetched (s : State) (thumb : Bool) (a : Word) :
    takeCode thumb ((bytesFrom a (if thumb then 2 else 4)).map s.readByte) =
      some (if thumb then .thumb (s.readHalf a) else .arm (s.readWord a), []) := by
  cases thumb with
  | true => rfl
  | false =>
    rw [if_neg Bool.false_ne_true, bytesFrom_four]
    rfl

/-- The instruction that the bytes at an address decode to is that of the opcode there. -/
theorem decodeCode_fetched {s : State} {thumb : Bool} {a : Word} {i : Instr}
    (h : decodeBytes thumb ((bytesFrom a (if thumb then 2 else 4)).map s.readByte) = .ok (i, [])) :
    decodeCode (if thumb then .thumb (s.readHalf a) else .arm (s.readWord a)) = .ok i := by
  rw [decodeBytes, takeCode_fetched] at h
  simp only at h
  split at h
  · rename_i hc
    cases h
    exact hc
  · cases h

/-- A step runs the instruction that the bytes at the PC decode to (R95, R175). -/
theorem step_decoded {s : State} {i : Instr} (hok : s.t = false → BusOk s .read (bytesFrom s.pc 4))
    (h : decodeBytes s.t ((bytesFrom s.pc (if s.t then 2 else 4)).map s.readByte) = .ok (i, [])) : step s = exec i s := by
  rw [step_eq_stepOpcode hok]
  apply stepOpcode_decoded
  have hc := decodeCode_fetched h
  cases ht : s.t with
  | true => simpa only [ht, if_true, fieldAt_setWidth_half] using hc
  | false => simpa only [ht, Bool.false_eq_true, if_false] using hc

theorem step_illegal {s : State} {e : DecodeError} (ht : s.t = false) (hok : BusOk s .read (bytesFrom s.pc 4))
    (h : decodeArm (s.readWord s.pc) = .error e) : step s = illegalWord (s.readWord s.pc) s := by
  rw [step_eq_stepOpcode fun _ => hok, ht, if_neg Bool.false_ne_true]
  exact stepOpcode_illegal ht h

/-- Settles O6: the step on a supplied opcode, on the opcode at the PC, and on a fetch that fails. -/
theorem stepRunsDecoded : Obligations.StepRunsDecoded :=
  ⟨fun _ _ _ => stepOpcode_decoded, fun _ _ _ => stepOpcode_illegal, fun _ _ _ => stepOpcode_low,
    fun _ => step_eq_stepOpcode, fun _ _ => step_decoded, fun _ _ => step_illegal, fun _ _ => step_fetchBusError⟩

end Sys2Proof.Machine
end

section
/-! PROOFS of the family 10_state: what every step keeps (R35, R42, R46, R49, R475, R476), what the PC writes, the user-bank transfers,
B, BL and MRS leave (R39, R40 to R44, R286, R292, R310, R390), the register reads, the reset and the banks (R31 to R37, R490). -/

namespace Sys2Proof.Machine

/-! ## The invariant, clause by clause -/

theorem slot_psr {k : Slot} (hk : 31 ≤ k.val) : k = cpsrSlot ∨ k = 32 ∨ k = 33 ∨ k = 34 ∨ k = 35 ∨ k = 36 := by
  revert k
  decide

theorem ne_pcSlot {k : Slot} (hk : 31 ≤ k.val) : k ≠ pcSlot := by
  revert k
  decide

theorem ne_cpsrSlot {k : Slot} (hk : 32 ≤ k.val) : k ≠ cpsrSlot := by
  revert k
  decide

/-- A field is a given value when its bits are. -/
theorem fieldAt_eq {m n lo : Nat} {v : BitVec m} {w : BitVec n} (h : ∀ i, i < n → v.getLsbD (lo + i) = w.getLsbD i) :
    fieldAt v lo n = w := by
  apply BitVec.eq_of_getLsbD_eq
  intro i hi
  rw [getLsbD_fieldAt, decide_eq_true hi, Bool.true_and, h i hi]

/-- The reserved bits read zero in every PSR slot, which are slots 31 to 36 (R30, R49). -/
theorem State.reservedClear_iff {s : State} :
    s.reservedClear = true ↔ ∀ k : Slot, 31 ≤ k.val → psrReserved (s.slot k) = 0 := by
  simp only [State.reservedClear, Bool.and_eq_true, beq_iff_eq]
  constructor
  · rintro ⟨⟨⟨⟨⟨h31, h32⟩, h33⟩, h34⟩, h35⟩, h36⟩ k hk
    obtain rfl | rfl | rfl | rfl | rfl | rfl := slot_psr hk <;> assumption
  · intro h
    exact ⟨⟨⟨⟨⟨h cpsrSlot (by decide), h 32 (by decide)⟩, h 33 (by decide)⟩, h 34 (by decide)⟩, h 35 (by decide)⟩,
      h 36 (by decide)⟩

theorem State.mapped_iff {s : State} : s.mapped = true ↔ fieldAt s.cpsr 0 5 = s.mode.bits := by
  simp only [State.mapped, beq_iff_eq]

/-- The reserved bits of a word that a PSR stores are clear (R49). -/
theorem psrReserved_and_psrMask (v : Word) : psrReserved (v &&& psrMask) = 0 :=
  fieldAt_eq fun i hi => by simp [getLsbD_psrMask, show ¬ 27 ≤ 8 + i by omega]

theorem psrReserved_congr {v w : Word} (h : ∀ k, 8 ≤ k → k < 27 → v.getLsbD k = w.getLsbD k) : psrReserved v = psrReserved w :=
  fieldAt_ext fun i hi => h (8 + i) (by omega) (by omega)

/-- The mode field is a stored field (R45, R49). -/
theorem modeField_and_psrMask (v : Word) : fieldAt (v &&& psrMask) 0 5 = fieldAt v 0 5 :=
  fieldAt_ext fun i hi => by simp [getLsbD_psrMask, show i < 8 by omega]

theorem modeField_withMode (w : Word) (m : Mode) : fieldAt (withMode w m) 0 5 = m.bits :=
  fieldAt_eq fun i hi => by simp [getLsbD_withMode, hi]

/-- A word-aligned value is aligned in either state (R42). -/
theorem pcAligned_of_arm {v : Word} (t : Bool) (h : pcAligned false v = true) : pcAligned t v = true := by
  cases t <;> simp_all [pcAligned]

/-- The next word address of a word address is one (R43). -/
theorem pcAligned_add_four {v : Word} (h : pcAligned false v = true) : pcAligned false (v + 4) = true := by
  rw [pcAligned_mod] at h ⊢
  bv_omega

theorem State.t_setPc (s : State) (v : Word) : (s.setPc v).t = s.t := by rw [State.t, State.cpsr_setPc, State.t]

theorem State.t_enterMode (s : State) (m : Mode) : (s.enterMode m).t = s.t := by
  rw [State.t, State.cpsr_enterMode, getLsbD_withMode, if_neg (by omega), State.t]

theorem State.t_setCpsr (s : State) (v : Word) : (s.setCpsr v).t = v.getLsbD 5 := by
  rw [State.t, State.cpsr_setCpsr, BitVec.getLsbD_and, getLsbD_psrMask]
  simp

theorem State.t_setT (s : State) (t : Bool) : (s.setT t).t = t := by
  rw [State.t, State.cpsr_setT, getLsbD_withBit _ _ _ _ (by omega), if_pos rfl]

/-! ## What keeps the invariant -/

/-- An update that keeps the PC and the SPSRs keeps the invariant where it keeps the clauses of the CPSR and of memory. -/
theorem State.Inv.of_psr {s x : State} (h : s.Inv) (hmap : fieldAt x.cpsr 0 5 = x.mode.bits) (hres : psrReserved x.cpsr = 0)
    (hhigh : ∀ k : Slot, 32 ≤ k.val → x.slot k = s.slot k) (hpc : x.pc = s.pc) (hal : pcAligned x.t s.pc = true)
    (hmem : x.mem.wf = true) : x.Inv := by
  refine ⟨State.mapped_iff.mpr hmap, State.reservedClear_iff.mpr fun k hk => ?_, by rwa [State.pcOk, hpc], hmem⟩
  by_cases hk31 : k = cpsrSlot
  · rwa [hk31]
  · rw [hhigh k (Nat.lt_of_le_of_ne hk fun e => hk31 (Fin.ext e.symm))]
    exact State.reservedClear_iff.mp h.reserved k hk

theorem Upd.wf {i : Instr} {s x : State} (h : Upd i s x) (hs : s.mem.wf = true) : x.mem.wf = true := by
  induction h with
  | start => exact hs
  | byte a v _ _ ih => exact State.wf_writeByte _ a v ih
  | reg _ _ _ _ ih | userReg _ _ _ _ _ ih | flags _ _ _ _ _ _ ih | draw _ _ ih => exact ih

theorem Upd.inv {i : Instr} {s x : State} (h : Upd i s x) (hs : s.Inv) : x.Inv := by
  obtain ⟨hmode, -, hhigh, hpsr, hpc⟩ := h.kept
  refine hs.of_psr ?_ ?_ hhigh hpc (by rw [h.t]; exact hs.pc) (h.wf hs.mem)
  · rw [hmode, ← State.mapped_iff.mp hs.mapped]
    exact fieldAt_ext fun k hk => hpsr _ (by omega)
  · rw [psrReserved_congr (w := s.cpsr) fun k _ hk => hpsr k (by omega)]
    exact State.reservedClear_iff.mp hs.reserved cpsrSlot (by decide)

theorem State.Inv.setPc {s : State} {v : Word} (h : s.Inv) (hv : pcAligned s.t v = true) : (s.setPc v).Inv := by
  refine ⟨?_, State.reservedClear_iff.mpr fun k hk => ?_, ?_, h.mem⟩
  · rw [State.mapped_iff, State.cpsr_setPc]
    exact State.mapped_iff.mp h.mapped
  · rw [State.slot_setPc, if_neg (ne_pcSlot hk)]
    exact State.reservedClear_iff.mp h.reserved k hk
  · rwa [State.pcOk, State.pc_setPc, State.t_setPc]

theorem State.Inv.pc_aligned {s : State} (h : s.Inv) (ht : s.t = false) : pcAligned false s.pc = true := by
  simpa only [State.pcOk, ht] using h.pc

theorem State.Inv.advance {s : State} (h : s.Inv) (ht : s.t = false) : s.advance.Inv :=
  h.setPc (by rw [ht]; exact pcAligned_add_four (h.pc_aligned ht))

theorem State.Inv.enterMode {s : State} (h : s.Inv) (m : Mode) : (s.enterMode m).Inv := by
  refine h.of_psr ?_ ?_ (fun k hk => ?_) (s.pc_enterMode m) ?_ h.mem
  · rw [State.cpsr_enterMode]
    exact modeField_withMode _ _
  · rw [State.cpsr_enterMode, psrReserved_congr (w := s.cpsr) fun k hk _ => by rw [getLsbD_withMode, if_neg (by omega)]]
    exact State.reservedClear_iff.mp h.reserved cpsrSlot (by decide)
  · rw [State.slot_enterMode, if_neg (ne_cpsrSlot hk)]
  · rw [State.t_enterMode]
    exact h.pc

/-- A CPSR write in ARM state may set T, since a word-aligned PC is aligned in THUMB state too. -/
theorem State.Inv.setCpsr {s : State} {v : Word} (h : s.Inv) (ht : s.t = false) (hv : fieldAt v 0 5 = s.mode.bits) :
    (s.setCpsr v).Inv := by
  refine h.of_psr ?_ ?_ (fun k hk => ?_) (s.pc_setCpsr v) (pcAligned_of_arm _ (h.pc_aligned ht)) h.mem
  · rw [State.cpsr_setCpsr, modeField_and_psrMask]
    exact hv
  · rw [State.cpsr_setCpsr]
    exact psrReserved_and_psrMask v
  · rw [State.slot_setCpsr, if_neg (ne_cpsrSlot hk)]

theorem State.Inv.loadCpsr {s : State} {m : Mode} {v : Word} (h : s.Inv) (ht : s.t = false)
    (hm : Mode.ofBits (fieldAt v 0 5) = some m) : (s.loadCpsr m v).Inv :=
  (h.enterMode m).setCpsr (by rw [State.t_enterMode, ht]) (Mode.bits_of_ofBits hm)

theorem State.Inv.setT {s : State} (h : s.Inv) (ht : s.t = false) (t : Bool) : (s.setT t).Inv := by
  refine h.of_psr ?_ ?_ (fun k hk => ?_) (s.pc_setT t) (pcAligned_of_arm _ (h.pc_aligned ht)) h.mem
  · rw [State.cpsr_setT, ← show fieldAt s.cpsr 0 5 = (s.setT t).mode.bits from State.mapped_iff.mp h.mapped]
    exact fieldAt_ext fun k hk => by rw [getLsbD_withBit _ _ _ _ (by omega), if_neg (by omega)]
  · rw [State.cpsr_setT, psrReserved_congr (w := s.cpsr) fun k hk _ => by
      rw [getLsbD_withBit _ _ _ _ (by omega), if_neg (by omega)]]
    exact State.reservedClear_iff.mp h.reserved cpsrSlot (by decide)
  · rw [State.slot_setT, if_neg (ne_cpsrSlot hk)]

/-- A slot write above the CPSR is one of an SPSR. -/
theorem State.slot_setSpsr {s : State} {k : Slot} (h : spsrSlot s.mode = some k) (v : Word) (j : Slot) :
    (s.setSpsr v).slot j = if j = k then v &&& psrMask else s.slot j := by
  simp only [State.setSpsr, h, State.slot_setSlot]

theorem State.setSpsr_of_noSpsr {s : State} (h : spsrSlot s.mode = none) (v : Word) : s.setSpsr v = s := by
  simp only [State.setSpsr, h]

/-- An SPSR write leaves every slot below the SPSRs, the PC and the CPSR among them. -/
theorem State.slot_setSpsr_low (s : State) (v : Word) {j : Slot} (hj : j.val < 32) : (s.setSpsr v).slot j = s.slot j := by
  cases hk : spsrSlot s.mode with
  | none => rw [State.setSpsr_of_noSpsr hk]
  | some k =>
    have := spsrSlot_ge hk
    rw [State.slot_setSpsr hk, if_neg (by rintro rfl; omega)]

@[simp] theorem State.pc_setSpsr (s : State) (v : Word) : (s.setSpsr v).pc = s.pc := s.slot_setSpsr_low v (by decide)
@[simp] theorem State.cpsr_setSpsr (s : State) (v : Word) : (s.setSpsr v).cpsr = s.cpsr := s.slot_setSpsr_low v (by decide)
theorem State.t_setSpsr (s : State) (v : Word) : (s.setSpsr v).t = s.t := by rw [State.t, State.cpsr_setSpsr, State.t]

theorem State.Inv.setSpsr {s : State} (h : s.Inv) (v : Word) : (s.setSpsr v).Inv := by
  cases hk : spsrSlot s.mode with
  | none => rwa [State.setSpsr_of_noSpsr hk]
  | some k =>
    refine ⟨?_, State.reservedClear_iff.mpr fun j hj => ?_, ?_, by rw [State.setSpsr_mem]; exact h.mem⟩
    · rw [State.mapped_iff, State.cpsr_setSpsr, State.setSpsr_mode]
      exact State.mapped_iff.mp h.mapped
    · rw [State.slot_setSpsr hk]
      split
      · exact psrReserved_and_psrMask v
      · exact State.reservedClear_iff.mp h.reserved j hj
    · rw [State.pcOk, State.t_setSpsr, State.pc_setSpsr]
      exact h.pc

/-- A write of r0..r14 is an update that any instruction may make, and keeps what those keep. -/
theorem State.Inv.setReg {s : State} (h : s.Inv) {r : Reg} (hr : r ≠ 15) (v : Word) : (s.setReg r v).Inv :=
  (Upd.reg (i := .b .al 0) r v .start hr).inv h

/-! ## Exception entry -/

/-- The CPSR of an exception entry, bit by bit (R460). -/
theorem getLsbD_exceptionCpsr (kind : ExceptionKind) (w : Word) (i : Nat) :
    (kind.cpsr w).getLsbD i =
      if i < 5 then kind.mode.bits.getLsbD i
      else if i = 5 then false
      else if i = 7 then true
      else if i = 6 then decide (kind = .fiq) || w.getLsbD 6
      else w.getLsbD i := by
  have hw : (withBit (withBit (withMode w kind.mode) 5 false) 7 true).getLsbD i =
      if i < 5 then kind.mode.bits.getLsbD i else if i = 5 then false else if i = 7 then true else w.getLsbD i := by
    rw [getLsbD_withBit _ _ _ _ (by omega), getLsbD_withBit _ _ _ _ (by omega), getLsbD_withMode]
    grind
  have h6 := getLsbD_withBit (withBit (withBit (withMode w kind.mode) 5 false) 7 true) 6 true i (by omega)
  cases kind <;> grind [ExceptionKind.cpsr]

theorem modeField_exceptionCpsr (kind : ExceptionKind) (w : Word) : fieldAt (kind.cpsr w) 0 5 = kind.mode.bits :=
  fieldAt_eq fun i hi => by simp [getLsbD_exceptionCpsr, hi]

/-- Every vector is word-aligned (R460). -/
theorem pcAligned_vector (kind : ExceptionKind) (t : Bool) : pcAligned t kind.vector = true := by
  cases kind <;> cases t <;> decide

theorem State.Inv.enterException {s : State} (h : s.Inv) (ht : s.t = false) (kind : ExceptionKind) :
    (enterException kind s).Inv := by
  have hreg := ((h.enterMode kind.mode).setSpsr s.cpsr).setReg (r := 14) (by decide) (s.pc + kind.link)
  refine (hreg.setCpsr ?_ ?_).setPc (pcAligned_vector kind _)
  · rw [State.t, State.cpsr_setReg, State.cpsr_setSpsr]
    exact (s.t_enterMode kind.mode).trans ht
  · rw [State.setReg_mode, State.setSpsr_mode]
    exact modeField_exceptionCpsr kind s.cpsr

/-! ## Every step keeps the invariant -/

/-- However an instruction ends in ARM state, it keeps the invariant. -/
theorem Ending.inv {i : Instr} {s t : State} (h : Ending i s t) (hs : s.Inv) (ht : s.t = false) : t.Inv := by
  cases h with
  | advance hx => exact (hx.inv hs).advance (hx.t.trans ht)
  | jump v hx ha => exact (hx.inv hs).setPc ha
  | restore saved v m hx _ _ hm ha => exact ((hx.inv hs).loadCpsr (hx.t.trans ht) hm).setPc (by rwa [t_loadCpsr])
  | exchange _ rm _ ha => exact (hs.setT ht _).setPc (by rwa [State.t_setT])
  | psr new _ _ h5 hf =>
    exact (hs.setCpsr ht (hf.trans (State.mapped_iff.mp hs.mapped))).advance (by rw [State.t_setCpsr, h5]; exact ht)
  | psrMode new m _ _ h5 hm => exact (hs.loadCpsr ht hm).advance (by rw [t_loadCpsr, h5]; exact ht)
  | spsr v _ => exact (hs.setSpsr v).advance ((s.t_setSpsr v).trans ht)
  | trap kind _ _ => exact hs.enterException ht kind

/-- In THUMB state every step is refused (R440), so one that answers is a step in ARM state. -/
theorem steps_arm {s t : State} (h : Steps s t) : s.t = false := by
  obtain ⟨i, h⟩ | ⟨w, h⟩ := steps_next h
  · exact exec_next_arm h
  · exact (armInstr_next h).1

/-- Settles O52, through the endings of every instruction. -/
theorem stepKeepsInvariant : Obligations.StepKeepsInvariant := by
  intro s t hs h
  obtain ⟨i, he⟩ := steps_ending h
  exact he.inv hs (steps_arm h)

/-! ## User mode -/

/-- The slots that the updates of an instruction in User mode may write are those User mode reaches (R35). -/
theorem Upd.slot_user {i : Instr} {s x : State} (h : Upd i s x) (hu : s.mode = .user) {k : Slot} (hk : k ∉ userSlots) :
    x.slot k = s.slot k := by
  have hreg : ∀ r : Reg, k ≠ mapReg .user r := by
    rintro r rfl
    revert r
    decide
  induction h with
  | start => rfl
  | draw _ _ ih | byte _ _ _ _ ih => exact ih
  | reg r v hx _ ih => rw [State.slot_setReg, hx.kept.mode, hu, if_neg (hreg r), ih]
  | userReg r v _ _ _ ih => rw [State.slot_setUserReg, if_neg (hreg r), ih]
  | flags n z c v _ _ ih => rw [State.slot_setNzcv, if_neg (by rintro rfl; revert hk; decide), ih]

/-- What a step of User mode that enters no exception keeps: the mode, the mode field, I and F, and every slot out of User mode's
reach (R35, R475). -/
def Confined (s t : State) : Prop :=
  t.mode = .user ∧ fieldAt t.cpsr 0 5 = fieldAt s.cpsr 0 5 ∧ fieldAt t.cpsr 6 2 = fieldAt s.cpsr 6 2 ∧
    ∀ k, k ∉ userSlots → t.slot k = s.slot k

/-- Of the low byte of the CPSR, T alone may change. -/
theorem Confined.of_bits {s t : State} (hmode : t.mode = .user)
    (hbits : ∀ k, k < 8 → k ≠ 5 → t.cpsr.getLsbD k = s.cpsr.getLsbD k) (hslots : ∀ k, k ∉ userSlots → t.slot k = s.slot k) :
    Confined s t :=
  ⟨hmode, fieldAt_ext fun i hi => hbits _ (by omega) (by omega), fieldAt_ext fun i hi => hbits _ (by omega) (by omega), hslots⟩

theorem ne_of_not_userSlots {k j : Slot} (hk : k ∉ userSlots) (hj : j ∈ userSlots) : k ≠ j := fun e => hk (e ▸ hj)

theorem Confined.setPc {s x : State} (h : Confined s x) (v : Word) : Confined s (x.setPc v) := by
  obtain ⟨hmode, hfield, hmask, hslots⟩ := h
  refine ⟨hmode, by rwa [State.cpsr_setPc], by rwa [State.cpsr_setPc], fun k hk => ?_⟩
  rw [State.slot_setPc, if_neg (ne_of_not_userSlots hk (by decide)), hslots k hk]

theorem Confined.setT {s : State} (hu : s.mode = .user) (t : Bool) : Confined s (s.setT t) := by
  refine .of_bits hu (fun k hk h5 => ?_) fun k hk => ?_
  · rw [State.cpsr_setT, getLsbD_withBit _ _ _ _ (by omega), if_neg h5]
  · rw [State.slot_setT, if_neg (ne_of_not_userSlots hk (by decide))]

theorem Confined.setCpsr {s : State} {v : Word} (hu : s.mode = .user) (hv : ∀ k, k < 8 → v.getLsbD k = s.cpsr.getLsbD k) :
    Confined s (s.setCpsr v) := by
  refine .of_bits hu (fun k hk _ => ?_) fun k hk => ?_
  · rw [State.cpsr_setCpsr, BitVec.getLsbD_and, getLsbD_psrMask, decide_eq_true hk, Bool.true_or, Bool.and_true, hv k hk]
  · rw [State.slot_setCpsr, if_neg (ne_of_not_userSlots hk (by decide))]

theorem Upd.confined {i : Instr} {s x : State} (h : Upd i s x) (hu : s.mode = .user) : Confined s x :=
  .of_bits (h.kept.mode.trans hu) (fun k hk _ => h.kept.psr k (by omega)) fun _ => h.slot_user hu

/-- However an instruction of User mode ends, it enters an exception or stays confined: the endings that change the mode or write an
SPSR need an SPSR to read or a privileged mode. -/
theorem Ending.confined {i : Instr} {s t : State} (h : Ending i s t) (hu : s.mode = .user) :
    (s.trapPolicy = .enter ∧ (t = enterException .und s ∨ t = enterException .swi s)) ∨ Confined s t := by
  cases h with
  | trap kind hk hp => exact .inl ⟨hp, hk.imp (fun e => by rw [e]) fun e => by rw [e]⟩
  | advance hx => exact .inr ((hx.confined hu).setPc _)
  | jump v hx _ => exact .inr ((hx.confined hu).setPc v)
  | exchange => exact .inr ((Confined.setT hu _).setPc _)
  | psr new _ hlow _ _ =>
    refine .inr (Confined.setPc (Confined.setCpsr hu fun k hk => ?_) _)
    exact Decidable.byContradiction fun hne => hlow k hne hk hu
  | restore saved v m hx _ hc _ _ =>
    rw [hx.curSpsr, curSpsr_none.mpr (.inl hu)] at hc
    cases hc
  | psrMode _ _ _ hne => exact absurd hu hne
  | spsr _ hne => exact absurd (.inl hu) hne

/-- Settles O54, through the endings of every instruction. -/
theorem userModeConfined : Obligations.UserModeConfined := by
  intro s t hu h
  obtain ⟨i, he⟩ := steps_ending h
  exact he.confined hu

/-! ## The flags -/

/-- The updates of an instruction that writes no flag leave the CPSR. -/
theorem Upd.cpsr_eq {i : Instr} {s x : State} (h : Upd i s x) (hw : i.writesFlags = false) : x.cpsr = s.cpsr := by
  induction h with
  | start => rfl
  | reg r v _ _ ih => rw [State.cpsr_setReg, ih]
  | userReg r v _ _ _ ih => rw [State.cpsr_setUserReg, ih]
  | flags _ _ _ _ _ hf => cases hw.symm.trans hf
  | draw _ _ ih | byte _ _ _ _ ih => exact ih

/-- A CPSR write keeps N, Z, C and V where its value does. -/
theorem getLsbD_and_psrMask_high (v : Word) {k : Nat} (hk : 28 ≤ k) : (v &&& psrMask).getLsbD k = v.getLsbD k := by
  by_cases h : k < 32
  · simp [getLsbD_psrMask, h, show 27 ≤ k by omega]
  · rw [BitVec.getLsbD_of_ge _ _ (by omega), BitVec.getLsbD_of_ge _ _ (by omega)]

/-- However an instruction ends that neither writes a flag nor returns from an exception, it keeps bits 31 to 28 of the CPSR. -/
theorem Ending.flags {i : Instr} {s t : State} (h : Ending i s t) (hw : i.writesFlags = false) (hr : i.returns = false) {k : Nat}
    (hk : 28 ≤ k) : t.cpsr.getLsbD k = s.cpsr.getLsbD k := by
  have hpsr {new : Word} (hf : ∀ k, new.getLsbD k ≠ s.cpsr.getLsbD k → 28 ≤ k → i.writesFlags = true) :
      (new &&& psrMask).getLsbD k = s.cpsr.getLsbD k := by
    rw [getLsbD_and_psrMask_high new hk]
    exact Decidable.byContradiction fun hne => by cases hw.symm.trans (hf k hne hk)
  cases h with
  | advance hx => rw [State.cpsr_advance, hx.cpsr_eq hw]
  | jump v hx _ => rw [State.cpsr_setPc, hx.cpsr_eq hw]
  | restore _ _ _ _ hret => cases hr.symm.trans hret
  | exchange => rw [State.cpsr_setPc, State.cpsr_setT, getLsbD_withBit _ _ _ _ (by omega), if_neg (by omega)]
  | psr new hf => rw [State.cpsr_advance, State.cpsr_setCpsr, hpsr hf]
  | psrMode new m hf => rw [State.cpsr_advance, State.cpsr_loadCpsr, hpsr hf]
  | spsr v _ => rw [State.cpsr_advance, State.cpsr_setSpsr]
  | trap kind _ _ =>
    rw [cpsr_enterException, getLsbD_and_psrMask_high _ hk, getLsbD_exceptionCpsr, if_neg (by omega), if_neg (by omega),
      if_neg (by omega), if_neg (by omega)]

/-- Settles O56, through the endings of every instruction. -/
theorem flagsWrittenOnlyBy : Obligations.FlagsWrittenOnlyBy := by
  intro i s t h hw hr
  have hf := fun k => (exec_next h).flags hw hr (k := k)
  exact ⟨hf 31 (by omega), hf 30 (by omega), hf 29 (by omega), hf 28 (by omega)⟩

/-! ## Frames of the shared updates -/

theorem Keeps.refl (s : State) (ks : List Slot) (ms : List Word) : Keeps s s ks ms :=
  ⟨⟨fun _ _ => rfl, fun _ _ => rfl, ⟨rfl, rfl, rfl, rfl⟩⟩, rfl⟩

theorem Keeps.setSlot {s x : State} {ks : List Slot} {ms : List Word} (h : Keeps s x ks ms) {k : Slot} (hk : k ∈ ks) (v : Word) :
    Keeps s (x.setSlot k v) ks ms := by
  obtain ⟨⟨hslots, hbytes, hparams⟩, hmode⟩ := h
  refine ⟨⟨fun j hj => ?_, hbytes, hparams.trans ⟨rfl, rfl, rfl, rfl⟩⟩, hmode⟩
  rw [State.slot_setSlot, if_neg (ne_of_mem_of_not_mem hk hj).symm, hslots j hj]

theorem Keeps.setReg {s x : State} {ks : List Slot} {ms : List Word} (h : Keeps s x ks ms) {r : Reg} (hk : mapReg s.mode r ∈ ks)
    (v : Word) : Keeps s (x.setReg r v) ks ms := h.setSlot (by rwa [h.2]) v

theorem Keeps.setPc {s x : State} {ks : List Slot} {ms : List Word} (h : Keeps s x ks ms) (hk : pcSlot ∈ ks) (v : Word) :
    Keeps s (x.setPc v) ks ms := h.setSlot hk v

theorem Keeps.advance {s x : State} {ks : List Slot} {ms : List Word} (h : Keeps s x ks ms) (hk : pcSlot ∈ ks) :
    Keeps s x.advance ks ms := h.setPc hk _

theorem Keeps.writeback {s x : State} {ks : List Slot} {ms : List Word} (h : Keeps s x ks ms) {wb : Bool} {rn : Reg}
    (hk : baseSlot s.mode wb rn ⊆ ks) (v : Word) : Keeps s (blockWriteback wb rn v x) ks ms := by
  cases wb with
  | false => exact h
  | true => exact h.setReg (hk List.mem_cons_self) v

theorem State.reg_setPc (s : State) (v : Word) {i : Reg} (h : i ≠ 15) : (s.setPc v).reg i = s.reg i := by
  rw [State.reg_eq_slot _ _ h, State.reg_eq_slot _ _ h, State.slot_setPc]
  exact if_neg (mapReg_ne_pc _ i h)

theorem reg_blockWriteback {rn : Reg} (h : rn ≠ 15) (v : Word) (s : State) : (blockWriteback true rn v s).reg rn = v :=
  s.reg_setReg_same rn v h

/-! ## PC writes in ARM state -/

theorem pcAligned_arm_of_not {v : Word} (h : ¬ Aligned v) : pcAligned false v = false :=
  Bool.eq_false_iff.mpr fun ha => h ((pcAligned_false v).mp ha)

/-- A PC write of an aligned value completes in ARM state (R42). -/
theorem pcWrite_arm {v : Word} {x : State} (ht : x.t = false) (hv : Aligned v) : pcWrite v x = .next (x.setPc v) :=
  pcWrite_aligned (by rwa [ht, pcAligned_false])

/-- An instruction that ends with a PC write in ARM state branches to an aligned value and stops on any other (R42). -/
theorem pcWrite_branches {r : Result} {v : Word} {x : State} {P : State → Prop} (hr : r = pcWrite v x) (ht : x.t = false)
    (hP : P (x.setPc v)) :
    (Aligned v → ∃ t, r = .next t ∧ P t) ∧ (¬ Aligned v → r = .fault (.unpredictable .misalignedPcWrite)) := by
  subst hr
  constructor
  · intro hv
    exact ⟨_, pcWrite_arm ht hv, hP⟩
  · intro hv
    exact pcWrite_misaligned (by rw [ht, pcAligned_arm_of_not hv])

/-! ## Data processing to r15 -/

theorem addWithCarry_res (p q : Word) (cin : Bool) : (addWithCarry p q cin).res = p + q + BitVec.ofNat 32 cin.toNat := by
  simp [addWithCarry, BitVec.ofNat_add]

/-- The adder's subtraction: a carry-in of 1 says "no borrow" (R352). -/
theorem addWithCarry_not_res (p q : Word) (cin : Bool) :
    (addWithCarry p (~~~q) cin).res = p - q - BitVec.ofNat 32 (!cin).toNat := by
  have hnot : ~~~q = -q - 1#32 := BitVec.not_eq_neg_add q
  rw [addWithCarry_res, hnot]
  cases cin with
  | false => simp only [Bool.toNat_false, Bool.not_false, Bool.toNat_true]; bv_omega
  | true => simp only [Bool.toNat_true, Bool.not_true, Bool.toNat_false]; bv_omega

/-- The twelve opcodes with a result: each runs `dataOp` with a function whose result is its row's (R351, R356 to R363, R368 to R371). -/
theorem exec_resultRow {row : DataRow ResultMaker} (h : row ∈ logicalRows ++ arithmeticRows) :
    ∃ f : AluIn → AluOut, (∀ x, (f x).res = row.value x.a x.op2 x.c) ∧
      ∀ cond sf rn rd op s, exec (row.make cond sf rn rd op) s = dataOp f cond sf rn rd op s := by
  simp only [logicalRows, arithmeticRows, List.cons_append, List.nil_append, List.mem_cons, List.not_mem_nil, or_false] at h
  obtain rfl | rfl | rfl | rfl | rfl | rfl | rfl | rfl | rfl | rfl | rfl | rfl := h
  · exact ⟨aluAnd, fun _ => rfl, fun _ _ _ _ _ _ => rfl⟩
  · exact ⟨aluEor, fun _ => rfl, fun _ _ _ _ _ _ => rfl⟩
  · exact ⟨aluOrr, fun _ => rfl, fun _ _ _ _ _ _ => rfl⟩
  · exact ⟨aluMov, fun _ => rfl, fun _ _ _ _ _ _ => rfl⟩
  · exact ⟨aluBic, fun _ => rfl, fun _ _ _ _ _ _ => rfl⟩
  · exact ⟨aluMvn, fun _ => rfl, fun _ _ _ _ _ _ => rfl⟩
  · exact ⟨aluSub, fun x => (addWithCarry_not_res x.a x.op2 true).trans (BitVec.sub_zero _), fun _ _ _ _ _ _ => rfl⟩
  · exact ⟨aluRsb, fun x => (addWithCarry_not_res x.op2 x.a true).trans (BitVec.sub_zero _), fun _ _ _ _ _ _ => rfl⟩
  · exact ⟨aluAdd, fun x => (addWithCarry_res x.a x.op2 false).trans (BitVec.add_zero _), fun _ _ _ _ _ _ => rfl⟩
  · exact ⟨aluAdc, fun x => addWithCarry_res x.a x.op2 x.c, fun _ _ _ _ _ _ => rfl⟩
  · exact ⟨aluSbc, fun x => addWithCarry_not_res x.a x.op2 x.c, fun _ _ _ _ _ _ => rfl⟩
  · exact ⟨aluRsc, fun x => addWithCarry_not_res x.op2 x.a x.c, fun _ _ _ _ _ _ => rfl⟩

theorem dataOp_pc {f : AluIn → AluOut} {cond : Cond} {op : ShifterOperand} {s : State} (he : Executes cond s)
    (hop : rsIsPc op = false) (rn : Reg) : dataOp f cond false rn 15 op s = pcWrite (f (aluIn op rn s)).res s := by
  rw [dataOp, armInstr_of_executes he, hop]
  rfl

/-- Settles O18: the twelve opcodes end with a PC write of their result. -/
theorem dataToPc : Obligations.DataToPc := by
  intro row hrow cond rn op s he hop
  obtain ⟨f, hres, hexec⟩ := exec_resultRow hrow
  refine pcWrite_branches (x := s) ?_ he.1 ⟨s.pc_setPc _, (Keeps.refl s _ _).setPc List.mem_cons_self _, rfl⟩
  rw [hexec, dataOp_pc he hop, hres]
  rfl

/-! ## Loads to r15 -/

theorem effAddr_wb (idx : Index) (up : Bool) (b o : Word) :
    (effAddr idx up b o).wb = if idx.writesBack then some (moved up b o) else none := by cases idx <;> rfl

/-- The writeback of modes 2 and 3 is that of a block transfer, by the indexing form (R226, R282). -/
theorem commitWb_effAddr (idx : Index) (up : Bool) (b o : Word) (rn : Reg) (s : State) :
    commitWb rn (effAddr idx up b o).wb s = blockWriteback idx.writesBack rn (moved up b o) s := by cases idx <;> rfl

theorem offset2_usable {off : Offset2} (h : off.usable = true) (s : State) : offset2 off s = .ok (off.value s) := by
  cases off with
  | imm => rfl
  | reg amount ty rm =>
    have hrm : rm ≠ 15 := by simpa [Offset2.usable] using h
    simp [offset2, hrm, Offset2.value, shiftOperand]

theorem checkBase_effAddr {idx : Index} {rn : Reg} (h : idx.writesBack = true → rn ≠ 15) (up : Bool) (b o : Word) :
    checkBase rn (effAddr idx up b o) = .ok (effAddr idx up b o) := by
  rw [checkBase, if_neg]
  rintro ⟨hwb, hrn⟩
  rw [effAddr_wb] at hwb
  split at hwb
  · exact h (by assumption) hrn
  · cases hwb

theorem modeTwo_ok {idx : Index} {rn : Reg} {off : Offset2} (hoff : off.usable = true) (hrn : idx.writesBack = true → rn ≠ 15)
    (up : Bool) (s : State) : modeTwo idx up rn off s = .ok (effAddr idx up (s.reg rn) (off.value s)) := by
  rw [modeTwo, offset2_usable hoff]
  exact checkBase_effAddr hrn up _ _

/-- Every row of loads, the T forms among them, is a word or a byte load at the address of its indexing form (R221, R234). -/
theorem exec_loadRow {row : TransferRow} (h : row ∈ loadRows) (cond : Cond) (up : Bool) (rn rd : Reg) (off : Offset2) (s : State) :
    exec (row.make cond up rn rd off) s =
      if row.byte then loadByte (modeTwo row.idx up rn off s) cond rn rd s
      else loadWord (modeTwo row.idx up rn off s) cond rn rd s := by
  simp only [loadRows, List.mem_cons, List.not_mem_nil, or_false] at h
  obtain rfl | rfl | rfl | rfl | rfl | rfl | rfl | rfl := h <;> rfl

theorem loadOp_completes {e : EffAddr} {rdPc : Option Unpredictability} {half : Bool} {bytes : Word → List Word}
    {value : State → Word → Word} {cond : Cond} {rn rd : Reg} {s : State} (he : Executes cond s)
    (hc : transferCheck true rdPc half rn rd e = none) (hb : BusOk s .read (bytes e.addr)) :
    loadOp (.ok e) rdPc half bytes value cond rn rd s = finish rd (value s e.addr) (commitWb rn e.wb s) := by
  rw [loadOp, armInstr_of_executes he]
  simp only [hc, busCheck_ok hb]

/-- A word load makes one check beyond its mode's: base and destination with writeback (R242). -/
theorem transferCheck_word {idx : Index} {rn rd : Reg} (h : idx.writesBack = true → rn ≠ rd) (up : Bool) (b o : Word) :
    transferCheck true none false rn rd (effAddr idx up b o) = none := by
  cases idx <;> simp_all [transferCheck, effAddr, Index.writesBack]

theorem State.loadRotated_eq (s : State) (a : Word) :
    s.loadRotated a = (s.readWord (align4 a)).rotateRight (8 * (a.toNat % 4)) := by
  have hk : (fieldAt a 0 2).toNat = a.toNat % 4 := by simp [toNat_fieldAt]
  rw [State.loadRotated, hk]

theorem t_blockWriteback (wb : Bool) (rn : Reg) (v : Word) (s : State) : (blockWriteback wb rn v s).t = s.t := by
  cases wb with
  | false => rfl
  | true => exact congrArg (·.getLsbD 5) (s.cpsr_setReg rn v)

/-- Settles O26: a word load to r15 ends with a PC write after its writeback. -/
theorem loadToPc : Obligations.LoadToPc := by
  intro row hrow hbyte cond up rn off s he hoff hrn a v hbus
  refine pcWrite_branches (x := blockWriteback row.idx.writesBack rn (moved up (s.reg rn) (off.value s)) s) ?_
    ((t_blockWriteback _ _ _ _).trans he.1) ⟨State.pc_setPc _ _, fun hwb => ?_, ?_, blockWriteback_mem _ _ _ _⟩
  · rw [TransferRow.bytes, hbyte] at hbus
    rw [exec_loadRow hrow, hbyte, modeTwo_ok hoff hrn]
    simp only [Bool.false_eq_true, if_false, loadWord]
    rw [loadOp_completes he (transferCheck_word hrn up _ _) hbus, State.loadRotated_eq, commitWb_effAddr]
    rfl
  · rw [State.reg_setPc _ _ (hrn hwb), hwb, reg_blockWriteback (hrn hwb)]
  · exact ((Keeps.refl s _ _).writeback (List.subset_cons_self _ _) _).setPc List.mem_cons_self _

/-! ## The registers of a list -/

theorem mem_regsOf {list : BitVec 16} {r : Reg} : r ∈ regsOf list ↔ list.getLsbD r.val = true := by
  have hr : ∀ r : Reg, r ∈ allRegs := by decide
  simp [regsOf, hr r]

/-- The registers of a list rise (R283). -/
theorem regsOf_sorted (list : BitVec 16) : (regsOf list).Pairwise (· < ·) :=
  List.Pairwise.filter _ (by decide)

theorem regsOf_nodup (list : BitVec 16) : (regsOf list).Nodup := (regsOf_sorted list).imp Fin.ne_of_lt

theorem exists_mem_regsOf {list : BitVec 16} (h : list ≠ 0) : ∃ r, r ∈ regsOf list := by
  refine Decidable.byContradiction fun hno => h (BitVec.eq_of_getLsbD_eq fun i hi => ?_)
  rw [BitVec.ofNat_eq_ofNat, BitVec.getLsbD_zero]
  exact Bool.eq_false_iff.mpr fun hbit => hno ⟨⟨i, hi⟩, mem_regsOf.mpr hbit⟩

theorem mem_bankSlots {m : Mode} {list : BitVec 16} {k : Slot} :
    k ∈ bankSlots m list ↔ ∃ r : Reg, list.getLsbD r.val = true ∧ r ≠ 15 ∧ mapReg m r = k := by
  simp [bankSlots, mem_regsOf, and_assoc]

theorem blockCheck_ok {rn : Reg} {list : BitVec 16} (hl : list ≠ 0) (hrn : rn ≠ 15) (k : Result) : blockCheck rn list k = k := by
  obtain ⟨r, hr⟩ := exists_mem_regsOf hl
  rw [blockCheck, popcount, if_neg (Nat.ne_of_gt (List.length_pos_of_mem hr)), if_neg hrn]

/-! ## The addresses of a list -/

theorem lowerCount_eq (list : BitVec 16) (r : Reg) : lowerCount list r = (regsOf list).countP (· < r) := by
  rw [regsOf, List.countP_filter]
  rfl

/-- Rising registers are assigned the word addresses from `a` on, each by the count of registers below it. -/
theorem assign_sorted {l : List Reg} (h : l.Pairwise (· < ·)) (a : Word) :
    assign a l = l.map (fun r => (r, align4 (a + BitVec.ofNat 32 (4 * l.countP (· < r))))) := by
  induction l generalizing a with
  | nil => rfl
  | cons r rs ih =>
    obtain ⟨hr, hrs⟩ := List.pairwise_cons.mp h
    have hfirst : (r :: rs).countP (· < r) = 0 := by
      rw [List.countP_eq_zero]
      intro q hq
      rcases List.mem_cons.mp hq with rfl | hq
      · simp
      · simpa only [decide_eq_true_eq, Fin.not_lt] using Fin.le_of_lt (hr q hq)
    have hrest : ∀ q ∈ rs, (r :: rs).countP (· < q) = rs.countP (· < q) + 1 := fun q hq =>
      List.countP_cons_of_pos (by simpa using hr q hq)
    rw [assign, ih hrs, List.map_cons, hfirst]
    congr 1
    · simp
    · refine List.map_congr_left fun q hq => ?_
      rw [hrest q hq]
      congr 2
      rw [BitVec.add_assoc]
      congr 1
      bv_omega

/-- Each register of a list is accessed at its own address (R283). -/
theorem transfers_eq (form : BlockForm) (b : Word) (list : BitVec 16) :
    transfers form b list = (regsOf list).map (fun r => (r, wordAddress form b list r)) := by
  rw [transfers, assign_sorted (regsOf_sorted list)]
  simp only [wordAddress, lowerCount_eq]

theorem align4_eq_shift (a : Word) : align4 a = (a >>> 2) <<< 2 := by
  have hm : ∀ j : Fin 32, (0xFFFFFFFC : Word).getLsbD j.val = decide (2 ≤ j.val) := by decide
  apply BitVec.eq_of_getLsbD_eq
  intro i hi
  rw [align4, BitVec.getLsbD_and, hm ⟨i, hi⟩, BitVec.getLsbD_shiftLeft, BitVec.getLsbD_ushiftRight]
  by_cases h2 : i < 2
  · simp [h2, show ¬ 2 ≤ i by omega]
  · simp [hi, h2, show 2 ≤ i by omega, show 2 + (i - 2) = i by omega]

theorem toNat_align4 (a : Word) : (align4 a).toNat = a.toNat / 4 * 4 := by
  rw [align4_eq_shift, BitVec.toNat_shiftLeft, BitVec.toNat_ushiftRight, Nat.shiftLeft_eq, Nat.shiftRight_eq_div_pow]
  omega

theorem aligned_iff (v : Word) : Aligned v ↔ v.toNat % 4 = 0 := (pcAligned_false v).symm.trans (pcAligned_mod v)

theorem aligned_align4 (a : Word) : Aligned (align4 a) := by
  rw [aligned_iff, toNat_align4]
  omega

theorem aligned_wordAddress (form : BlockForm) (b : Word) (list : BitVec 16) (r : Reg) : Aligned (wordAddress form b list r) :=
  aligned_align4 _

theorem lowerCount_le (list : BitVec 16) (r : Reg) : lowerCount list r ≤ 16 := List.countP_le_length

/-- A register of the list counts below every higher one. -/
theorem lowerCount_lt {list : BitVec 16} {q r : Reg} (hq : q ∈ regsOf list) (h : q < r) : lowerCount list q < lowerCount list r := by
  rw [lowerCount_eq, lowerCount_eq]
  obtain ⟨below, above, hl⟩ := List.append_of_mem hq
  have hmono : ∀ l : List Reg, l.countP (· < q) ≤ l.countP (· < r) := fun l =>
    List.countP_mono_left fun x _ hx => decide_eq_true (Fin.lt_trans (of_decide_eq_true hx) h)
  have hq' : (q :: above).countP (· < q) = above.countP (· < q) := List.countP_cons_of_neg (by simp)
  have hr' : (q :: above).countP (· < r) = above.countP (· < r) + 1 := List.countP_cons_of_pos (by simpa using h)
  rw [hl, List.countP_append, List.countP_append, hq', hr']
  have := hmono below
  have := hmono above
  omega

/-- Two registers of a list have two addresses: sixteen words do not reach around the address space. -/
theorem wordAddress_inj {form : BlockForm} {b : Word} {list : BitVec 16} {q r : Reg} (hq : q ∈ regsOf list) (hr : r ∈ regsOf list)
    (h : wordAddress form b list q = wordAddress form b list r) : q = r := by
  have hq16 := lowerCount_le list q
  have hr16 := lowerCount_le list r
  have hcount : lowerCount list q = lowerCount list r := by
    have h := congrArg BitVec.toNat h
    simp only [wordAddress, toNat_align4, BitVec.toNat_add, BitVec.toNat_ofNat] at h
    omega
  rcases Nat.lt_trichotomy q.val r.val with hlt | heq | hgt
  · exact absurd hcount (Nat.ne_of_lt (lowerCount_lt hq hlt))
  · exact Fin.ext heq
  · exact absurd hcount (Nat.ne_of_gt (lowerCount_lt hr hgt))

/-! ## Loading a list -/

/-- A register write of a block load: one slot of the bank of mode `b`, in a state whose mode is `m` (R38, R39). -/
structure WritesBank (b m : Mode) (set : State → Reg → Word → State) : Prop where
  fields : ∀ s r v, (set s r v).mode = s.mode ∧ (set s r v).mem = s.mem ∧ SameParams s (set s r v) ∧ (set s r v).draws = s.draws
  slot : ∀ s r v k, s.mode = m → (set s r v).slot k = if k = mapReg b r then v else s.slot k

theorem writesBank_setReg (m : Mode) : WritesBank m m State.setReg :=
  ⟨fun _ _ _ => ⟨rfl, rfl, ⟨rfl, rfl, rfl, rfl⟩, rfl⟩, fun s r v k h => by rw [State.slot_setReg, h]⟩

theorem writesBank_setUserReg (m : Mode) : WritesBank .user m State.setUserReg :=
  ⟨fun _ _ _ => ⟨rfl, rfl, ⟨rfl, rfl, rfl, rfl⟩, rfl⟩, fun s r v k _ => s.slot_setUserReg r v k⟩

section
variable {b m : Mode} {set : State → Reg → Word → State} (hset : WritesBank b m set) (src : State) (addr : Reg → Word)
include hset

/-- A slot of no register of the list keeps its value. -/
theorem loadRegs_slot_other {l : List Reg} {x : State} (hm : x.mode = m) {k : Slot} (hk : ∀ r ∈ l, r ≠ 15 → k ≠ mapReg b r) :
    (loadRegs set src (l.map fun r => (r, addr r)) x).slot k = x.slot k := by
  induction l generalizing x with
  | nil => rfl
  | cons r rs ih =>
    obtain ⟨hr, hrs⟩ := List.forall_mem_cons.mp hk
    rw [List.map_cons, loadRegs]
    split
    · exact ih hm hrs
    · rename_i h15
      rw [ih ((hset.fields x r _).1.trans hm) hrs, hset.slot x r _ k hm, if_neg (hr h15)]

/-- Each register of the list receives the word at its address. -/
theorem loadRegs_slot_mem {l : List Reg} (hl : l.Nodup) {x : State} (hm : x.mode = m) {r : Reg} (hr : r ∈ l) (h15 : r ≠ 15) :
    (loadRegs set src (l.map fun r => (r, addr r)) x).slot (mapReg b r) = src.readWord (addr r) := by
  induction l generalizing x with
  | nil => cases hr
  | cons q qs ih =>
    obtain ⟨hq, hqs⟩ := List.nodup_cons.mp hl
    rw [List.map_cons, loadRegs]
    rcases List.mem_cons.mp hr with rfl | hr
    · rw [if_neg h15, loadRegs_slot_other hset src addr ((hset.fields x r _).1.trans hm), hset.slot x r _ _ hm, if_pos rfl]
      rintro p hp - e
      exact hq (mapReg_inj e ▸ hp)
    · split
      · exact ih hqs hm hr
      · exact ih hqs ((hset.fields x q _).1.trans hm) hr

variable (form : BlockForm) (base : Word) (list : BitVec 16)

theorem transfers_slot_mem {x : State} (hm : x.mode = m) {r : Reg} (hr : list.getLsbD r.val = true) (h15 : r ≠ 15) :
    (loadRegs set src (transfers form base list) x).slot (mapReg b r) = src.readWord (wordAddress form base list r) := by
  rw [transfers_eq]
  exact loadRegs_slot_mem hset src _ (regsOf_nodup list) hm (mem_regsOf.mpr hr) h15

theorem transfers_slot_other {x : State} (hm : x.mode = m) {k : Slot} (hk : k ∉ bankSlots b list) :
    (loadRegs set src (transfers form base list) x).slot k = x.slot k := by
  rw [transfers_eq]
  exact loadRegs_slot_other hset src _ hm fun r hr h15 e => hk (mem_bankSlots.mpr ⟨r, mem_regsOf.mp hr, h15, e.symm⟩)

theorem transfers_keeps {s x : State} {ks : List Slot} {ms : List Word} (h : Keeps s x ks ms) (hs : s.mode = m)
    (hk : bankSlots b list ⊆ ks) : Keeps s (loadRegs set src (transfers form base list) x) ks ms := by
  obtain ⟨⟨hslots, hbytes, hparams⟩, hmode⟩ := h
  obtain ⟨hlmode, hlmem, hlparams, -⟩ := loadRegs_fields set src hset.fields (transfers form base list) x
  refine ⟨⟨fun k hkk => ?_, fun a ha => ?_, hparams.trans hlparams⟩, hlmode.trans hmode⟩
  · rw [transfers_slot_other hset src form base list (hmode.trans hs) fun hmem => hkk (hk hmem), hslots k hkk]
  · rw [State.readByte, hlmem]
    exact hbytes a ha

end

theorem loadRegs_mem {b m : Mode} {set : State → Reg → Word → State} (hset : WritesBank b m set) (src : State)
    (ts : List (Reg × Word)) (x : State) : (loadRegs set src ts x).mem = x.mem := (loadRegs_fields set src hset.fields ts x).2.1

/-- The word a list with r15 loads for the PC (R286). -/
theorem pcWord_transfers {list : BitVec 16} (h : list.getLsbD 15 = true) (src : State) (form : BlockForm) (b : Word) :
    pcWord src (transfers form b list) = some (src.readWord (wordAddress form b list 15)) := by
  have hfind : (regsOf list).find? (· == 15) = some 15 := by
    obtain ⟨r, hr⟩ : ∃ r, (regsOf list).find? (· == 15) = some r :=
      Option.isSome_iff_exists.mp (List.find?_isSome.mpr ⟨15, mem_regsOf.mpr h, beq_self_eq_true 15⟩)
    have hr15 : (r == 15) = true := List.find?_some (p := fun q : Reg => q == 15) hr
    rw [hr, beq_iff_eq.mp hr15]
  rw [pcWord, transfers_eq, List.find?_map]
  simp only [Function.comp_def, hfind, Option.map_some]

/-! ## LDM to r15 -/

theorem exec_ldmRow {row : BlockForm × (Cond → Bool → Reg → BitVec 16 → Instr)} (h : row ∈ ldmRows) (cond : Cond) (wb : Bool)
    (rn : Reg) (list : BitVec 16) (s : State) : exec (row.2 cond wb rn list) s = ldmOp row.1 cond wb rn list s := by
  simp only [ldmRows, List.mem_cons, List.not_mem_nil, or_false] at h
  obtain rfl | rfl | rfl | rfl := h <;> rfl

/-- The state of an LDM before its ending: the base written back, then the registers loaded (R286). -/
def ldmState (form : BlockForm) (wb : Bool) (rn : Reg) (list : BitVec 16) (s : State) : State :=
  loadRegs State.setReg s (transfers form (s.reg rn) list) (blockWriteback wb rn (blockWb form (s.reg rn) list) s)

theorem ldmOp_completes {form : BlockForm} {cond : Cond} {wb : Bool} {rn : Reg} {list : BitVec 16} {s : State}
    (he : Executes cond s) (hl : list ≠ 0) (hrn : rn ≠ 15) (hwb : wb = true → list.getLsbD rn.val = false)
    (hbus : BusOk s .read (blockBytes form (s.reg rn) list)) :
    ldmOp form cond wb rn list s =
      match pcWord s (transfers form (s.reg rn) list) with
      | some v => pcWrite v (ldmState form wb rn list s)
      | none => .next (ldmState form wb rn list s).advance := by
  rw [ldmOp, armInstr_of_executes he, blockCheck_ok hl hrn, if_neg fun h => by cases (hwb h.1).symm.trans h.2]
  exact busCheck_ok hbus _

section
variable (form : BlockForm) (wb : Bool) {rn : Reg} (hrn : rn ≠ 15) (list : BitVec 16) (s : State)

include hrn in
theorem ldmState_t : (ldmState form wb rn list s).t = s.t :=
  (Upd.loads (i := .ldmia .al wb rn list) s _ (Upd.blockWriteback wb _ .start hrn)).t

theorem ldmState_mode : (ldmState form wb rn list s).mode = s.mode :=
  (loadRegs_fields _ s (writesBank_setReg s.mode).fields _ _).1.trans (blockWriteback_mode wb rn _ s)

theorem ldmState_mem : (ldmState form wb rn list s).mem = s.mem :=
  (loadRegs_mem (writesBank_setReg s.mode) s _ _).trans (blockWriteback_mem wb rn _ s)

theorem ldmState_keeps : Keeps s (ldmState form wb rn list s) (pcSlot :: (bankSlots s.mode list ++ baseSlot s.mode wb rn)) [] :=
  transfers_keeps (writesBank_setReg s.mode) s _ _ _
    ((Keeps.refl s _ _).writeback (fun _ h => List.mem_cons_of_mem _ (List.mem_append_right _ h)) _) rfl
    fun _ h => List.mem_cons_of_mem _ (List.mem_append_left _ h)

theorem ldmState_reg {r : Reg} (hr : list.getLsbD r.val = true) (h15 : r ≠ 15) :
    (ldmState form wb rn list s).reg r = s.readWord (wordAddress form (s.reg rn) list r) := by
  rw [State.reg_eq_slot _ _ h15, ldmState_mode]
  exact transfers_slot_mem (writesBank_setReg s.mode) s _ _ _ (blockWriteback_mode _ _ _ _) hr h15

include hrn in
/-- The written-back base stays, since it is not in the list (R286). -/
theorem ldmState_base (hb : list.getLsbD rn.val = false) :
    (ldmState form true rn list s).reg rn = blockWb form (s.reg rn) list := by
  have hother : mapReg s.mode rn ∉ bankSlots s.mode list := fun h => by
    obtain ⟨r, hr, -, e⟩ := mem_bankSlots.mp h
    rw [mapReg_inj e, hb] at hr
    cases hr
  rw [State.reg_eq_slot _ _ hrn, ldmState_mode]
  have hload := transfers_slot_other (writesBank_setReg s.mode) s form (s.reg rn) list
    (x := s.setReg rn (blockWb form (s.reg rn) list)) rfl hother
  exact hload.trans (by rw [State.slot_setReg, if_pos rfl])

end

/-- Settles O37: an LDM with r15 ends with a PC write after its loads and its writeback. -/
theorem ldmToPc : Obligations.LdmToPc := by
  intro row hrow cond wb rn list s he hrn h15 hwb hbus v
  have hl : list ≠ 0 := by rintro rfl; cases h15
  refine pcWrite_branches (x := ldmState row.1 wb rn list s) ?_ ((ldmState_t row.1 wb hrn list s).trans he.1)
    ⟨State.pc_setPc _ _, fun r hr hbit => ?_, ?_, (ldmState_keeps row.1 wb list s).setPc List.mem_cons_self _,
      ldmState_mem row.1 wb list s⟩
  · rw [exec_ldmRow hrow, ldmOp_completes he hl hrn hwb hbus, pcWord_transfers h15]
  · rw [State.reg_setPc _ _ hr, ldmState_reg _ _ _ _ hbit hr]
  · rintro rfl
    rw [State.reg_setPc _ _ hrn, ldmState_base _ hrn _ _ (hwb rfl)]

/-! ## Words in memory -/

theorem State.readWord_congr {s t : State} {a : Word} (h : ∀ b ∈ bytesFrom a 4, t.readByte b = s.readByte b) :
    t.readWord a = s.readWord a := by
  simp only [bytesFrom_four, List.forall_mem_cons] at h
  obtain ⟨h0, h1, h2, h3, -⟩ := h
  rw [State.readWord, h0, h1, h2, h3, State.readWord]

theorem State.readByte_writeWord_other {s : State} {a b : Word} (v : Word) (h : s.mem.wf = true) (hb : b ∉ bytesFrom a 4) :
    (s.writeWord a v).readByte b = s.readByte b := by
  simp only [bytesFrom_four, List.mem_cons, List.not_mem_nil, or_false, not_or] at hb
  obtain ⟨h0, h1, h2, h3⟩ := hb
  rw [State.readByte_writeWord _ _ _ _ h, if_neg h3, if_neg h2, if_neg h1, if_neg h0]

/-- The bytes of a word access are those of its word (R86). -/
theorem align4_of_mem {a b : Word} (ha : Aligned a) (hb : b ∈ bytesFrom a 4) : align4 b = a := by
  rw [aligned_iff] at ha
  apply BitVec.eq_of_toNat_eq
  rw [toNat_align4]
  simp only [bytesFrom_four, List.mem_cons, List.not_mem_nil, or_false] at hb
  rcases hb with rfl | rfl | rfl | rfl <;> bv_omega

/-! ## Storing a list -/

theorem transferBytes_cons (t : Reg × Word) (ts : List (Reg × Word)) :
    transferBytes (t :: ts) = bytesFrom t.2 4 ++ transferBytes ts := List.flatMap_cons

theorem storeRegs_readByte_other (get : Reg → Word) {ts : List (Reg × Word)} {x : State} (h : x.mem.wf = true) {b : Word}
    (hb : b ∉ transferBytes ts) : (storeRegs get ts x).readByte b = x.readByte b := by
  induction ts generalizing x with
  | nil => rfl
  | cons t ts ih =>
    rw [transferBytes_cons, List.mem_append, not_or] at hb
    obtain ⟨hfirst, hrest⟩ := hb
    rw [storeRegs, ih (State.wf_writeWord _ _ _ h) hrest, State.readByte_writeWord_other _ h hfirst]

/-- A word at an aligned address of no transfer of the list keeps its value. -/
theorem storeRegs_readWord_other (get : Reg → Word) {addr : Reg → Word} (hal : ∀ r, Aligned (addr r)) {l : List Reg} {x : State}
    (h : x.mem.wf = true) {a : Word} (ha : Aligned a) (hne : ∀ r ∈ l, addr r ≠ a) :
    (storeRegs get (l.map fun r => (r, addr r)) x).readWord a = x.readWord a := by
  refine State.readWord_congr fun b hb => storeRegs_readByte_other get h fun hmem => ?_
  obtain ⟨t, ht, hbt⟩ := List.mem_flatMap.mp hmem
  obtain ⟨r, hr, rfl⟩ := List.mem_map.mp ht
  exact hne r hr ((align4_of_mem (hal r) hbt).symm.trans (align4_of_mem ha hb))

/-- Each register of a list of distinct addresses is stored at its own. -/
theorem storeRegs_readWord_mem (get : Reg → Word) {addr : Reg → Word} (hal : ∀ r, Aligned (addr r)) {l : List Reg} (hl : l.Nodup)
    (hinj : ∀ q ∈ l, ∀ r ∈ l, addr q = addr r → q = r) {x : State} (h : x.mem.wf = true) {r : Reg} (hr : r ∈ l) :
    (storeRegs get (l.map fun r => (r, addr r)) x).readWord (addr r) = get r := by
  induction l generalizing x with
  | nil => cases hr
  | cons q qs ih =>
    obtain ⟨hq, hqs⟩ := List.nodup_cons.mp hl
    rw [List.map_cons, storeRegs]
    rcases List.mem_cons.mp hr with rfl | hr
    · rw [storeRegs_readWord_other get hal (State.wf_writeWord _ _ _ h) (hal r), State.readWord_writeWord _ _ _ h]
      intro p hp e
      exact hq (hinj p (List.mem_cons_of_mem _ hp) r List.mem_cons_self e ▸ hp)
    · exact ih hqs (fun a ha b hb => hinj a (List.mem_cons_of_mem _ ha) b (List.mem_cons_of_mem _ hb))
        (State.wf_writeWord _ _ _ h) hr

/-- A block store writes each register of the list at its address (R283, R287). -/
theorem transfers_stored (get : Reg → Word) (form : BlockForm) (base : Word) {list : BitVec 16} {x : State} (h : x.mem.wf = true)
    {r : Reg} (hr : list.getLsbD r.val = true) :
    (storeRegs get (transfers form base list) x).readWord (wordAddress form base list r) = get r := by
  rw [transfers_eq]
  exact storeRegs_readWord_mem get (aligned_wordAddress form base list) (regsOf_nodup list)
    (fun _ hq _ hr => wordAddress_inj hq hr) h (mem_regsOf.mpr hr)

theorem slot_storeRegs (get : Reg → Word) (ts : List (Reg × Word)) (x : State) (k : Slot) : (storeRegs get ts x).slot k = x.slot k := by
  rw [State.slot, (storeRegs_fields get ts x).2.1, State.slot]

/-- A block store changes the bytes of its transfers only (R287). -/
theorem storeRegs_keeps (get : Reg → Word) (ts : List (Reg × Word)) {s : State} (h : s.mem.wf = true) (ks : List Slot) :
    Keeps s (storeRegs get ts s) ks (transferBytes ts) := by
  obtain ⟨hmode, -, hparams, -⟩ := storeRegs_fields get ts s
  exact ⟨⟨fun k _ => slot_storeRegs get ts s k, fun _ ha => storeRegs_readByte_other get h ha, hparams⟩, hmode⟩

/-! ## The user-bank transfers -/

section
variable {cond : Cond} {s : State} (he : Executes cond s) (hs : ¬ NoSpsr s) {list : BitVec 16} (hl : list ≠ 0) {rn : Reg}
  (hrn : rn ≠ 15) (form : BlockForm)
include he hs hl hrn

theorem execLdmUser_completes (hbus : BusOk s .read (blockBytes form (s.reg rn) list)) :
    exec (.ldmUser cond form false rn list) s = .next (loadRegs State.setUserReg s (transfers form (s.reg rn) list) s).advance := by
  rw [show exec (.ldmUser cond form false rn list) s = execLdmUser cond form false rn list s from rfl, execLdmUser,
    armInstr_of_executes he, blockCheck_ok hl hrn, if_neg Bool.false_ne_true, if_neg hs]
  exact busCheck_ok hbus _

theorem execStmUser_completes (hbus : BusOk s .write (blockBytes form (s.reg rn) list)) :
    exec (.stmUser cond form false rn list) s = .next (storeRegs s.userReg (transfers form (s.reg rn) list) s).advance := by
  rw [show exec (.stmUser cond form false rn list) s = execStmUser cond form false rn list s from rfl, execStmUser,
    armInstr_of_executes he, blockCheck_ok hl hrn, if_neg Bool.false_ne_true, if_neg hs]
  exact busCheck_ok hbus _

end

/-- What the user-bank STM stores for r15 is its late read value (R291, R293). -/
theorem State.userReg_eq (s : State) (r : Reg) :
    s.userReg r = if r = 15 then (if s.pcReadModel = .plain then s.pc else s.pc + 12) else s.slot (mapReg .user r) := by
  unfold State.userReg State.regIn State.pcRead
  cases s.pcReadModel <;> simp

/-- Settles O40: the loads into the User bank and the stores from it, register by register. -/
theorem userBankResults : Obligations.UserBankResults := by
  intro cond form rn list s he hs hl hrn
  constructor
  · intro h15 hbus
    have hset := writesBank_setUserReg s.mode
    refine ⟨_, execLdmUser_completes he hs hl hrn form hbus, fun r hr => ?_, ?_, ?_, loadRegs_mem hset s _ _⟩
    · have hr15 : r ≠ 15 := by
        rintro rfl
        cases h15.symm.trans hr
      rw [State.slot_advance, if_neg (mapReg_ne_pc _ r hr15)]
      exact transfers_slot_mem hset s form _ list rfl hr hr15
    · rw [State.pc_advance, (Upd.userLoads (i := .ldmUser cond form false rn list) s _ hs .start).kept.pc]
    · exact (transfers_keeps hset s form _ list (Keeps.refl s _ _) rfl (List.subset_cons_self _ _)).advance List.mem_cons_self
  · intro hwf hbus
    refine ⟨_, execStmUser_completes he hs hl hrn form hbus, fun r hr => ?_, ?_, ?_⟩
    · rw [← State.userReg_eq]
      exact transfers_stored s.userReg form _ hwf hr
    · rw [State.pc_advance]
      exact congrArg (· + 4) (slot_storeRegs _ _ s pcSlot)
    · exact (storeRegs_keeps s.userReg _ hwf _).advance List.mem_cons_self

/-! ## Branches -/

/-- The offset of a branch is four times its signed field (R310). -/
theorem signExtend_shift_two (imm24 : BitVec 24) : imm24.signExtend 32 <<< 2 = BitVec.ofInt 32 (4 * imm24.toInt) := by
  rw [BitVec.shiftLeft_eq_mul_twoPow, BitVec.signExtend, BitVec.mul_comm, BitVec.ofInt_mul]
  rfl

theorem State.reg_fifteen (s : State) : s.reg 15 = if s.pcReadModel = .plain then s.pc else s.pc + 8 := by
  unfold State.reg State.regIn State.pcRead
  cases s.pcReadModel <;> rfl

theorem branchTarget_eq (imm24 : BitVec 24) (s : State) :
    branchTarget imm24 s = (if s.pcReadModel = .plain then s.pc else s.pc + 8) + BitVec.ofInt 32 (4 * imm24.toInt) := by
  rw [branchTarget, State.reg_fifteen, signExtend_shift_two]

/-- A branch from a word-aligned PC has a word-aligned target. -/
theorem aligned_branchTarget (imm24 : BitVec 24) {s : State} (h : Aligned s.pc) : Aligned (branchTarget imm24 s) := by
  have hpc : (s.reg 15).toNat % 4 = 0 := by
    rw [aligned_iff] at h
    rw [State.reg_fifteen]
    split <;> bv_omega
  have hoff : (imm24.signExtend 32 <<< 2 : Word).toNat % 4 = 0 := by
    rw [BitVec.toNat_shiftLeft, Nat.shiftLeft_eq]
    omega
  rw [aligned_iff, branchTarget, BitVec.toNat_add]
  omega

/-- Settles O42: a PC write of the target, after the link of BL. -/
theorem branchResults : Obligations.BranchResults := by
  intro cond imm24 s he hpc
  have htarget := aligned_branchTarget imm24 hpc
  have hb : exec (.b cond imm24) s = .next (s.setPc (branchTarget imm24 s)) :=
    (armInstr_of_executes he _).trans (pcWrite_arm he.1 htarget)
  have hbl : exec (.bl cond imm24) s = .next ((s.setReg 14 (s.pc + 4)).setPc (branchTarget imm24 s)) :=
    (armInstr_of_executes he _).trans (pcWrite_arm ((congrArg (·.getLsbD 5) (s.cpsr_setReg 14 _)).trans he.1) htarget)
  rw [branchTarget_eq] at hb hbl
  refine ⟨⟨_, hb, State.pc_setPc _ _, (Keeps.refl s _ _).setPc (by simp) _, rfl⟩, _, hbl, State.pc_setPc _ _, ?_,
    ((Keeps.refl s _ _).setReg (by simp) _).setPc (by simp) _, rfl⟩
  rw [State.reg_setPc _ _ (by decide), State.reg_setReg_same _ _ _ (by decide)]

/-! ## MRS -/

/-- MRS to r0..r14 writes one register and advances (R390). -/
theorem mrs_writes {r : Result} {s : State} {rd : Reg} {v : Word} (hr : r = .next (s.setReg rd v).advance) (hrd : rd ≠ 15) :
    ∃ t, r = .next t ∧ t.reg rd = v ∧ t.pc = s.pc + 4 ∧ Keeps s t [pcSlot, mapReg s.mode rd] [] ∧ t.mem = s.mem := by
  refine ⟨_, hr, ?_, ?_, ((Keeps.refl s _ _).setReg (by simp) _).advance (by simp), rfl⟩
  · rw [State.reg_advance _ _ hrd, State.reg_setReg_same _ _ _ hrd]
  · rw [State.pc_advance, State.pc_setReg _ _ _ hrd]

theorem exec_mrs {cond : Cond} {s : State} (he : Executes cond s) (spsr : Bool) {rd : Reg} (hrd : rd ≠ 15) :
    exec (.mrs cond spsr rd) s =
      match if spsr then s.curSpsr else some s.cpsr with
      | some v => .next (s.setReg rd v).advance
      | none => .fault (.invalidModeAccess .read) := by
  rw [show exec (.mrs cond spsr rd) s = execMrs cond spsr rd s from rfl, execMrs, armInstr_of_executes he, if_neg hrd]
  cases spsr <;> rfl

theorem exec_mrs_pc {cond : Cond} {s : State} (he : Executes cond s) (spsr : Bool) :
    exec (.mrs cond spsr 15) s = .fault (.unpredictable .mrsToPc) := armInstr_of_executes he _

/-- Settles O44: MRS by its source. -/
theorem mrsResults : Obligations.MrsResults := by
  intro cond rd s he
  refine ⟨fun hrd => ⟨mrs_writes (exec_mrs he false hrd) hrd, fun k hk => mrs_writes ?_ hrd, fun hs => ?_⟩, ?_⟩
  · rw [exec_mrs he true hrd, if_pos rfl, curSpsr_some hk]
  · rw [exec_mrs he true hrd, if_pos rfl, curSpsr_none.mpr hs]
  · rintro rfl spsr
    exact exec_mrs_pc he spsr

/-! ## Register reads -/

theorem pcRead_eq (s : State) (late : Bool) :
    s.pcRead late = if s.pcReadModel = .plain then s.slot 30 else s.slot 30 + if late then 12 else 8 := by
  unfold State.pcRead
  cases s.pcReadModel <;> cases late <;> rfl

/-- A late read is the one a register-specified shift makes of its first operand (R197, R350). -/
theorem firstOperand_eq (op : ShifterOperand) (i : Reg) (s : State) : firstOperand op i s = s.regIn s.mode i (isRegShift op) := by
  unfold firstOperand
  cases isRegShift op <;> rfl

/-- Settles O11: the tables by their entries, the reads by the PC read value. -/
theorem registerReads : Obligations.RegisterReads := by
  refine ⟨by decide, Mode.ofBits_bits, fun m i => by cases m <;> revert i <;> decide, fun m => by cases m <;> rfl, fun s i => ?_⟩
  refine ⟨rfl, rfl, rfl, rfl, rfl, rfl, rfl, rfl, ?_, ?_, fun op => ?_⟩
  · rw [State.reg, State.regIn, pcRead_eq]
    rfl
  · rw [State.regLate, State.regIn, pcRead_eq]
    rfl
  · rw [firstOperand_eq, State.regIn, pcRead_eq]
    cases op <;> rfl

/-! ## Reset -/

/-- Settles O51: the reset state, clause by clause. -/
theorem resetSatisfiesInvariant : Obligations.ResetSatisfiesInvariant :=
  ⟨by decide, by decide, by decide, by decide⟩

theorem resetParams_valid {p : ResetParams} : p.valid = true ↔ p.mode ≠ .user ∧ Aligned p.pc := by
  have hmode : p.mode.privileged = true ↔ p.mode ≠ .user := by cases p.mode <;> decide
  rw [ResetParams.valid, Bool.and_eq_true, hmode, pcAligned_false]

/-- The CPSR after a reset, bit by bit (R490). -/
theorem getLsbD_resetCpsr (p : ResetParams) (free : Word) (k : Nat) :
    (p.cpsr free).getLsbD k =
      if k < 5 then p.mode.bits.getLsbD k
      else if k = 6 then p.f
      else if k = 7 then p.i
      else decide (27 ≤ k) && free.getLsbD k := by
  have hm : (0xF8000000 : Word).getLsbD k = (decide (27 ≤ k) && decide (k < 32)) := by
    by_cases hk : k < 32
    · have : ∀ j : Fin 32, (0xF8000000 : Word).getLsbD j.val = (decide (27 ≤ j.val) && decide (j.val < 32)) := by decide
      exact this ⟨k, hk⟩
    · rw [BitVec.getLsbD_of_ge _ _ (by omega)]
      simp [hk]
  rw [ResetParams.cpsr, BitVec.getLsbD_or, BitVec.getLsbD_or, BitVec.getLsbD_or, BitVec.getLsbD_and, hm, getLsbD_placeBit,
    getLsbD_placeBit, getLsbD_place]
  by_cases h5 : k < 5
  · simp [h5, show k < 32 by omega, show ¬ 27 ≤ k by omega, show ¬ k = 7 by omega, show ¬ k = 6 by omega]
  rw [BitVec.getLsbD_of_ge p.mode.bits _ (by omega), if_neg h5]
  by_cases h6 : k = 6
  · simp [h6]
  by_cases h7 : k = 7
  · simp [h7]
  by_cases hk : k < 32
  · simp [h6, h7, hk, Bool.and_comm]
  · simp [h6, h7, BitVec.getLsbD_of_ge free k (by omega)]

theorem getElem_set_slot (xs : Vector Word 37) {i : Nat} (hi : i < 37) (v : Word) (k : Slot) :
    (xs.set i v hi)[k] = if k.val = i then v else xs[k] := by
  simp [Vector.getElem_set, eq_comm]

theorem getElem_freeBank (free : Vector Word 37) (k : Slot) :
    (freeBank free)[k] = if k.val < 32 then free[k] else free[k] &&& psrMask := by
  simp only [freeBank, getElem_set_slot]
  by_cases hk : k.val < 32
  · rw [if_neg (by omega), if_neg (by omega), if_neg (by omega), if_neg (by omega), if_neg (by omega), if_pos hk]
  · have hne : k ≠ cpsrSlot := by rintro rfl; revert hk; decide
    obtain h | rfl | rfl | rfl | rfl | rfl := slot_psr (show 31 ≤ k.val by omega)
    · exact absurd h hne
    all_goals rfl

/-- The state a valid reset leads to (R490). -/
def resetState (p : ResetParams) (free : Vector Word 37) (s : State) : State :=
  { s with
    phys := (((((freeBank free).set 18 p.spUsr).set 22 p.spIrq).set 28 p.spUnd).set 30 p.pc).set 31 (p.cpsr free[31])
    mode := p.mode }

theorem slot_resetState (p : ResetParams) (free : Vector Word 37) (s : State) (k : Slot) :
    (resetState p free s).slot k =
      if k.val = 31 then p.cpsr free[31]
      else if k.val = 30 then p.pc
      else if k.val = 28 then p.spUnd
      else if k.val = 22 then p.spIrq
      else if k.val = 18 then p.spUsr
      else if k.val < 32 then free[k]
      else free[k] &&& psrMask := by
  simp only [State.slot, resetState, getElem_set_slot, getElem_freeBank]

theorem resetWith_valid {p : ResetParams} (h : p.valid = true) (free : Vector Word 37) (s : State) :
    resetWith p free s = some (resetState p free s) := if_pos h

theorem resetWith_invalid {p : ResetParams} (h : ¬ p.valid = true) (free : Vector Word 37) (s : State) :
    resetWith p free s = none := if_neg h

theorem cpsr_resetState (p : ResetParams) (free : Vector Word 37) (s : State) : (resetState p free s).cpsr = p.cpsr free[31] :=
  slot_resetState p free s cpsrSlot

theorem reservedClear_resetState (p : ResetParams) (free : Vector Word 37) (s : State) :
    (resetState p free s).reservedClear = true := by
  rw [State.reservedClear_iff]
  intro k hk
  by_cases hk31 : k.val = 31
  · rw [slot_resetState, if_pos hk31]
    refine fieldAt_eq fun i hi => ?_
    rw [getLsbD_resetCpsr, if_neg (by omega), if_neg (by omega), if_neg (by omega), decide_eq_false (by omega), Bool.false_and]
    exact BitVec.getLsbD_zero.symm
  · rw [slot_resetState, if_neg hk31, if_neg (by omega), if_neg (by omega), if_neg (by omega), if_neg (by omega),
      if_neg (by omega)]
    exact psrReserved_and_psrMask _

/-- Settles O59: the slots and the CPSR of the reset state, and the parameter sets it needs. -/
theorem resetEstablishes : Obligations.ResetEstablishes := by
  intro p free s
  constructor
  · intro h
    refine resetWith_invalid (fun hv => ?_) free s
    obtain ⟨hmode, hpc⟩ := resetParams_valid.mp hv
    exact h.elim hmode (absurd hpc)
  · intro hmode hpc
    have hcpsr := cpsr_resetState p free s
    have hslot := slot_resetState p free s
    refine ⟨_, resetWith_valid (resetParams_valid.mpr ⟨hmode, hpc⟩) free s, hslot 18, hslot 22, hslot 28, hslot 30, rfl, ?_, ?_, ?_,
      ?_, reservedClear_resetState p free s, ?_, fun k hk => ?_, rfl, ⟨rfl, rfl, rfl, rfl⟩⟩
    · rw [hcpsr]
      exact fieldAt_eq fun i hi => by rw [getLsbD_resetCpsr, if_pos (by omega), Nat.zero_add]
    · rw [State.t, hcpsr, getLsbD_resetCpsr]
      rfl
    · rw [hcpsr, getLsbD_resetCpsr]
      rfl
    · rw [hcpsr, getLsbD_resetCpsr]
      rfl
    · rw [hcpsr]
      refine fieldAt_ext fun i hi => ?_
      rw [getLsbD_resetCpsr, if_neg (by omega), if_neg (by omega), if_neg (by omega), decide_eq_true (by omega), Bool.true_and]
    · simp only [List.mem_cons, List.not_mem_nil, or_false, not_or] at hk
      obtain ⟨h18, h22, h28, h30, h31⟩ := hk
      have hval {n : Nat} {hn : n < 37} (h : ¬ k = ⟨n, hn⟩) : ¬ k.val = n := fun e => h (Fin.ext e)
      rw [hslot, if_neg (hval h31), if_neg (hval h30), if_neg (hval h28), if_neg (hval h22), if_neg (hval h18)]

/-! ## The banks -/

theorem spSlot_ne_cpsrSlot (m : Mode) : m.spSlot ≠ cpsrSlot := mapReg_ne_cpsr m 13

theorem hostEnterMode_bits (m : Mode) (s : State) : hostEnterMode m.bits s = some (s.enterMode m) := by
  rw [hostEnterMode, Mode.ofBits_bits]

theorem hostWrite_sp_enterMode (v : Word) (s : State) (m : Mode) :
    hostWrite 13 v (s.enterMode m) = some ((s.enterMode m).setSlot m.spSlot v) := rfl

/-- Entering a mode writes no slot but the CPSR (R36). -/
theorem State.slot_enterMode_other (s : State) (m : Mode) {k : Slot} (hk : k ≠ cpsrSlot) : (s.enterMode m).slot k = s.slot k := by
  rw [State.slot_enterMode, if_neg hk]

theorem hostRead_sp_enterMode (s : State) (m : Mode) : hostRead 13 (s.enterMode m) = s.slot m.spSlot :=
  s.slot_enterMode_other m (spSlot_ne_cpsrSlot m)

/-- Settles O60: only the write changes a slot, and it changes r13 of the first mode. -/
theorem banksKeptApart : Obligations.BanksKeptApart := by
  intro s v m1 m2 hne
  refine ⟨_, _, _, _, hostEnterMode_bits m1 s, hostWrite_sp_enterMode v s m1, hostEnterMode_bits m2 _, hostEnterMode_bits m1 _, ?_, ?_,
    fun k hk hk1 => ?_, rfl⟩
  · rw [hostRead_sp_enterMode, State.slot_enterMode_other _ _ (spSlot_ne_cpsrSlot m1), State.slot_setSlot, if_pos rfl]
  · rw [hostRead_sp_enterMode, State.slot_setSlot, if_neg hne.symm, State.slot_enterMode_other _ _ (spSlot_ne_cpsrSlot m2)]
  · rw [State.slot_enterMode_other _ _ hk, State.slot_enterMode_other _ _ hk, State.slot_setSlot, if_neg hk1,
      State.slot_enterMode_other _ _ hk]

end Sys2Proof.Machine
end

section
/-! PROOFS of the family 20_memory: what a byte reads as (R93), who reaches memory (R81), the placed instruction (R95), the single
transfers (R87, R88, R221 to R235), the checks of mode 3 (R225 to R239), and the bus errors (R92, R96). -/

namespace Sys2Proof.Machine

/-! ## Reading back -/

/-- Settles O58, by the laws of the byte store. -/
theorem memoryReadsBack : Obligations.MemoryReadsBack := by
  intro s h
  refine ⟨fun a b v => s.readByte_writeByte a b v h, fun a v => s.wf_writeByte a v h, fun m hm hread => ?_⟩
  refine Memory.ext_from m s.mem 0 hm h fun a ha => ?_
  simpa only [State.readByte, BitVec.toNat_ofNat, Nat.mod_eq_of_lt ha] using hread (BitVec.ofNat 32 a)

/-! ## Instructions that do not reach memory -/

/-- A state with another memory. -/
def State.setMem (s : State) (m : Memory) : State := { s with mem := m }

section
variable (s : State) (m : Memory)

@[simp] theorem State.setMem_t : (s.setMem m).t = s.t := rfl
@[simp] theorem State.setMem_cpsr : (s.setMem m).cpsr = s.cpsr := rfl
@[simp] theorem State.setMem_pc : (s.setMem m).pc = s.pc := rfl
@[simp] theorem State.setMem_mode : (s.setMem m).mode = s.mode := rfl
@[simp] theorem State.setMem_mulsCPolicy : (s.setMem m).mulsCPolicy = s.mulsCPolicy := rfl
@[simp] theorem State.setMem_trapPolicy : (s.setMem m).trapPolicy = s.trapPolicy := rfl
@[simp] theorem State.setMem_curSpsr : (s.setMem m).curSpsr = s.curSpsr := rfl
@[simp] theorem State.setMem_reg (i : Reg) : (s.setMem m).reg i = s.reg i := rfl
@[simp] theorem State.setMem_aluIn (op : ShifterOperand) (rn : Reg) : aluIn op rn (s.setMem m) = aluIn op rn s := by
  cases op <;> rfl

@[simp] theorem State.setMem_setReg (i : Reg) (v : Word) : (s.setMem m).setReg i v = (s.setReg i v).setMem m := rfl
@[simp] theorem State.setMem_setPc (v : Word) : (s.setMem m).setPc v = (s.setPc v).setMem m := rfl
@[simp] theorem State.setMem_advance : (s.setMem m).advance = s.advance.setMem m := rfl
@[simp] theorem State.setMem_setT (t : Bool) : (s.setMem m).setT t = (s.setT t).setMem m := rfl
@[simp] theorem State.setMem_setCpsr (v : Word) : (s.setMem m).setCpsr v = (s.setCpsr v).setMem m := rfl
@[simp] theorem State.setMem_enterMode (mode : Mode) : (s.setMem m).enterMode mode = (s.enterMode mode).setMem m := rfl
@[simp] theorem State.setMem_loadCpsr (mode : Mode) (v : Word) : (s.setMem m).loadCpsr mode v = (s.loadCpsr mode v).setMem m := rfl
@[simp] theorem State.setMem_commitFlags (o : AluOut) : commitFlags o (s.setMem m) = (commitFlags o s).setMem m := rfl

@[simp] theorem State.setMem_setSpsr (v : Word) : (s.setMem m).setSpsr v = (s.setSpsr v).setMem m := by
  unfold State.setSpsr
  rw [State.setMem_mode]
  cases spsrSlot s.mode <;> rfl

@[simp] theorem State.setMem_mulFlags (n z : Bool) : mulFlags n z (s.setMem m) = (mulFlags n z s).setMem m := by
  rw [mulFlags, State.setMem_mulsCPolicy, mulFlags]
  cases s.mulsCPolicy <;> rfl

@[simp] theorem State.setMem_longMulFlags (n z : Bool) : longMulFlags n z (s.setMem m) = (longMulFlags n z s).setMem m := by
  rw [longMulFlags, State.setMem_mulsCPolicy, longMulFlags]
  cases s.mulsCPolicy <;> rfl

@[simp] theorem State.setMem_enterException (kind : ExceptionKind) :
    enterException kind (s.setMem m) = (enterException kind s).setMem m := by
  simp only [enterException, State.setMem_cpsr, State.setMem_pc, State.setMem_enterMode, State.setMem_setSpsr, State.setMem_setReg,
    State.setMem_setCpsr, State.setMem_setPc]

@[simp] theorem withMem_next : withMem m (.next s) = .next (s.setMem m) := rfl
@[simp] theorem withMem_fault (f : Fault) : withMem m (.fault f) = .fault f := rfl
@[simp] theorem withMem_refused (r : Refusal) : withMem m (.refused r) = .refused r := rfl

end

/-- A meaning that neither reads nor writes memory: with any other memory it answers the same and leaves that memory as it is. -/
def MemBlind (f : State → Result) : Prop := ∀ (s : State) (m : Memory), f (s.setMem m) = withMem m (f s)

theorem withMem_ite (m : Memory) (p : Prop) [Decidable p] (r r' : Result) :
    withMem m (if p then r else r') = if p then withMem m r else withMem m r' := apply_ite (withMem m) p r r'

theorem ite_setMem (m : Memory) (p : Prop) [Decidable p] (x y : State) :
    (if p then x.setMem m else y.setMem m) = (if p then x else y).setMem m := (apply_ite (·.setMem m) p x y).symm

theorem MemBlind.gate {f : State → Result} (h : MemBlind f) (cond : Cond) : MemBlind fun s => armInstr cond s (f s) := by
  intro s m
  dsimp only
  rw [armInstr, State.setMem_t, State.setMem_cpsr, h s m, State.setMem_advance, armInstr, withMem_ite, withMem_ite, withMem_refused,
    withMem_next]

theorem MemBlind.pcWrite (v : Word) : MemBlind (pcWrite v) := by
  intro s m
  rw [Machine.pcWrite, State.setMem_t, State.setMem_setPc, Machine.pcWrite, withMem_ite, withMem_next, withMem_fault]

theorem MemBlind.exceptionReturn (v : Word) : MemBlind (exceptionReturn v) := by
  intro s m
  unfold Machine.exceptionReturn restoreCpsr
  rw [State.setMem_curSpsr]
  cases s.curSpsr with
  | none => rfl
  | some saved =>
    cases hm : Mode.ofBits (fieldAt saved 0 5) with
    | none => simp only [hm, withMem_fault]
    | some mode => simp only [hm, State.setMem_loadCpsr, MemBlind.pcWrite v _ m]

theorem MemBlind.dataOp (f : AluIn → AluOut) (cond : Cond) (sf : Bool) (rn rd : Reg) (op : ShifterOperand) :
    MemBlind (dataOp f cond sf rn rd op) := by
  refine MemBlind.gate (fun s m => ?_) cond
  simp only [State.setMem_aluIn, MemBlind.exceptionReturn _ s m, MemBlind.pcWrite _ s m, State.setMem_commitFlags, ite_setMem,
    State.setMem_setReg, State.setMem_advance, withMem_ite, withMem_fault, withMem_next]

theorem MemBlind.testOp (f : AluIn → AluOut) (cond : Cond) (rn rd : Reg) (op : ShifterOperand) :
    MemBlind (testOp f cond rn rd op) := by
  refine MemBlind.gate (fun s m => ?_) cond
  simp only [State.setMem_aluIn, State.setMem_commitFlags, State.setMem_advance, withMem_ite, withMem_fault, withMem_next]

theorem MemBlind.mulCommit (sf : Bool) (rd : Reg) (r : Word) : MemBlind (mulCommit sf rd r) := by
  intro s m
  simp only [Machine.mulCommit, State.setMem_mulFlags, ite_setMem, State.setMem_setReg, State.setMem_advance, withMem_next]

theorem MemBlind.mul (cond : Cond) (sf : Bool) (rd rn rs rm : Reg) : MemBlind (execMul cond sf rd rn rs rm) := by
  refine MemBlind.gate (fun s m => ?_) cond
  simp only [State.setMem_reg, MemBlind.mulCommit _ _ _ s m, withMem_ite, withMem_fault]

theorem MemBlind.mla (cond : Cond) (sf : Bool) (rd rn rs rm : Reg) : MemBlind (execMla cond sf rd rn rs rm) := by
  refine MemBlind.gate (fun s m => ?_) cond
  simp only [State.setMem_reg, MemBlind.mulCommit _ _ _ s m, withMem_ite, withMem_fault]

theorem MemBlind.longMul (f : Word → Word → Word → Word → BitVec 64) (cond : Cond) (sf : Bool) (hi lo rs rm : Reg) :
    MemBlind (longMul f cond sf hi lo rs rm) := by
  refine MemBlind.gate (fun s m => ?_) cond
  simp only [State.setMem_reg, State.setMem_longMulFlags, ite_setMem, State.setMem_setReg, State.setMem_advance, withMem_ite,
    withMem_fault, withMem_next]

theorem MemBlind.mrs (cond : Cond) (spsr : Bool) (rd : Reg) : MemBlind (execMrs cond spsr rd) := by
  refine MemBlind.gate (fun s m => ?_) cond
  rw [State.setMem_curSpsr]
  cases s.curSpsr with
  | none => simp only [State.setMem_cpsr, State.setMem_setReg, State.setMem_advance, withMem_ite, withMem_fault, withMem_next]
  | some v => simp only [State.setMem_cpsr, State.setMem_setReg, State.setMem_advance, withMem_ite, withMem_fault, withMem_next]

theorem MemBlind.msrCpsr (mask : BitVec 4) (v : Word) : MemBlind (msrCpsr mask v) := by
  intro s m
  unfold Machine.msrCpsr
  dsimp only
  rw [State.setMem_cpsr, State.setMem_mode]
  generalize (if s.mode = .user then msrMask mask &&& 0xFF000000 else msrMask mask) = writes
  generalize mergePsr s.cpsr writes v = new
  rw [withMem_ite, withMem_ite]
  cases Mode.ofBits (fieldAt new 0 5) with
  | none => simp only [State.setMem_setCpsr, State.setMem_advance, withMem_fault, withMem_next]
  | some mode => simp only [State.setMem_setCpsr, State.setMem_loadCpsr, State.setMem_advance, withMem_fault, withMem_next]

theorem MemBlind.msrSpsr (mask : BitVec 4) (v : Word) : MemBlind (msrSpsr mask v) := by
  intro s m
  rw [Machine.msrSpsr, State.setMem_curSpsr, Machine.msrSpsr]
  cases s.curSpsr with
  | none => rfl
  | some old => simp only [State.setMem_setSpsr, State.setMem_advance, withMem_next]

theorem MemBlind.msrFromReg {k : Word → State → Result} (hk : ∀ v, MemBlind (k v)) (rm : Reg) :
    MemBlind fun s => msrFromReg rm s fun v => k v s := by
  intro s m
  simp only [Machine.msrFromReg, State.setMem_reg, hk (s.reg rm) s m, withMem_ite, withMem_fault]

theorem MemBlind.undefinedTrap (word : Word) : MemBlind (undefinedTrap word) := by
  intro s m
  rw [Machine.undefinedTrap, State.setMem_trapPolicy, Machine.undefinedTrap]
  cases s.trapPolicy with
  | report => rfl
  | enter => simp only [State.setMem_enterException, withMem_next]

theorem MemBlind.softwareTrap (imm24 : BitVec 24) : MemBlind (softwareTrap imm24) := by
  intro s m
  rw [Machine.softwareTrap, State.setMem_trapPolicy, Machine.softwareTrap]
  cases s.trapPolicy with
  | report => rfl
  | enter => simp only [State.setMem_enterException, withMem_next]

/-- Every instruction outside the transfers and the swaps is blind to memory (R81); the THUMB rows are refused. -/
theorem MemBlind.exec {i : Instr} (h : i.touchesMemory = false) : MemBlind (exec i) := by
  cases i with
  | and | eor | sub | rsb | add | adc | sbc | rsc | orr | mov | bic | mvn => exact .dataOp _ _ _ _ _ _
  | tst | teq | cmp | cmn => exact .testOp _ _ _ _ _
  | mul _ _ _ rn => exact .mul _ _ _ rn _ _
  | mla => exact .mla _ _ _ _ _ _
  | umull => exact MemBlind.longMul (fun m x _ _ => umul64 m x) _ _ _ _ _ _
  | umlal => exact MemBlind.longMul umla64 _ _ _ _ _ _
  | smull => exact MemBlind.longMul (fun m x _ _ => smul64 m x) _ _ _ _ _ _
  | smlal => exact MemBlind.longMul smla64 _ _ _ _ _ _
  | b =>
    refine MemBlind.gate (fun s m => ?_) _
    exact MemBlind.pcWrite _ s m
  | bl =>
    refine MemBlind.gate (fun s m => ?_) _
    exact MemBlind.pcWrite _ (s.setReg 14 _) m
  | bx =>
    refine MemBlind.gate (fun s m => ?_) _
    exact MemBlind.pcWrite _ (s.setT _) m
  | mrs => exact .mrs _ _ _
  | msrCpsrReg => exact .gate (.msrFromReg (.msrCpsr _) _) _
  | msrSpsrReg => exact .gate (.msrFromReg (.msrSpsr _) _) _
  | msrCpsrImm => exact .gate (.msrCpsr _ _) _
  | msrSpsrImm => exact .gate (.msrSpsr _ _) _
  | swi => exact .gate (.softwareTrap _) _
  | und | cdp | mcr | mrc | stc | ldc => exact .gate (.undefinedTrap _) _
  | ldr | str | ldrb | strb | ldrt | strt | ldrbt | strbt | ldrh | strh | ldrsb | ldrsh | swp | swpb => cases h
  | ldmia | ldmib | ldmda | ldmdb | stmia | stmib | stmda | stmdb | ldmReturn | ldmUser | stmUser => cases h
  | _ => exact fun _ _ => rfl

/-- Settles O57, instruction by instruction. -/
theorem onlyTransfersTouchMemory : Obligations.OnlyTransfersTouchMemory := fun _ s m h => MemBlind.exec h s m

/-! ## The placed instruction -/

theorem toNat_sub_lt_of_mem_bytesFrom {a b : Word} {n : Nat} (h : b ∈ bytesFrom a n) : (b - a).toNat < n := by
  induction n generalizing a with
  | zero => cases h
  | succ n ih =>
    rcases List.mem_cons.mp h with rfl | h
    · rw [BitVec.sub_self]
      exact Nat.succ_pos n
    · have := ih h
      bv_omega

theorem not_mem_bytesFrom_succ (a : Word) {n : Nat} (hn : n < 2 ^ 32) : a ∉ bytesFrom (a + 1) n := by
  intro h
  have := toNat_sub_lt_of_mem_bytesFrom h
  bv_omega

theorem writeBytes_phys (a : Word) (bs : List Byte) (x : State) : (writeBytes a bs x).phys = x.phys := by
  induction bs generalizing a x with
  | nil => rfl
  | cons b bs ih => exact ih (a + 1) (x.writeByte a b)

theorem writeBytes_busHoles (a : Word) (bs : List Byte) (x : State) : (writeBytes a bs x).busHoles = x.busHoles := by
  induction bs generalizing a x with
  | nil => rfl
  | cons b bs ih => exact ih (a + 1) (x.writeByte a b)

theorem slot_writeBytes (a : Word) (bs : List Byte) (x : State) (k : Slot) : (writeBytes a bs x).slot k = x.slot k := by
  rw [State.slot, writeBytes_phys, State.slot]

theorem readByte_writeBytes_other {a b : Word} {bs : List Byte} {x : State} (h : x.mem.wf = true) (hb : b ∉ bytesFrom a bs.length) :
    (writeBytes a bs x).readByte b = x.readByte b := by
  induction bs generalizing a x with
  | nil => rfl
  | cons v bs ih =>
    obtain ⟨hne, hrest⟩ := not_or.mp (mt List.mem_cons.mpr hb)
    rw [writeBytes, ih (x.wf_writeByte a v h) hrest, x.readByte_writeByte a b v h, if_neg hne]

/-- Bytes written from an address upwards read back in order. -/
theorem map_readByte_writeBytes (a : Word) {bs : List Byte} (hlen : bs.length < 2 ^ 32) {x : State} (h : x.mem.wf = true) :
    (bytesFrom a bs.length).map (writeBytes a bs x).readByte = bs := by
  induction bs generalizing a x with
  | nil => rfl
  | cons v bs ih =>
    have hn : bs.length < 2 ^ 32 := Nat.lt_of_succ_lt hlen
    have hwf := x.wf_writeByte a v h
    rw [List.length_cons, bytesFrom, List.map_cons, writeBytes, ih (a + 1) hn hwf,
      readByte_writeBytes_other hwf (not_mem_bytesFrom_succ a hn), x.readByte_writeByte a a v h, if_pos rfl]

/-- An opened hole forbids no byte of the fetch to be read (log entry 7). -/
theorem openHole_covers {a b : Word} (hb : b ∈ bytesFrom a 4) (h : BusHole) : (openHole a h).covers b .read = false := by
  unfold openHole
  split
  · exact Bool.and_false _
  · rename_i hany
    simp only [List.any_eq_true, not_exists, not_and, Bool.not_eq_true] at hany
    exact hany b hb

theorem busOk_openFetch (s : State) : BusOk (openFetch s) .read (bytesFrom s.pc 4) := by
  intro b hb
  have hnone : (s.busHoles.map (openHole s.pc)).any (fun h => h.covers b .read) = false := by
    rw [List.any_map]
    exact List.any_eq_false.mpr fun h _ => Bool.not_eq_true _ ▸ openHole_covers hb h
  exact congrArg not hnone

section
variable (s : State) (c : Code)

theorem placeCode_pc : (placeCode s c).pc = s.pc := (slot_writeBytes _ _ _ pcSlot).trans (State.pc_setT _ _)

theorem placeCode_t : (placeCode s c).t = Code.inThumb c :=
  (congrArg (·.getLsbD 5) (slot_writeBytes _ _ _ cpsrSlot)).trans (State.t_setT _ _)

theorem placeCode_busOk : BusOk (placeCode s c) .read (bytesFrom s.pc 4) := by
  intro b hb
  rw [State.busOk, placeCode, writeBytes_busHoles]
  exact busOk_openFetch s b hb

/-- A fetch in the placed opcode's own state reads its bytes. -/
theorem placeCode_bytes (h : s.mem.wf = true) :
    (bytesFrom s.pc (if Code.inThumb c then 2 else 4)).map (placeCode s c).readByte = c.bytes := by
  have hlen : (fetchImage c).length = 4 := by cases c <;> rfl
  have hread := map_readByte_writeBytes s.pc (bs := fetchImage c) (by omega) (x := (openFetch s).setT (Code.inThumb c)) h
  rw [hlen] at hread
  cases c with
  | arm w => exact hread
  | thumb half => exact congrArg (List.take 2) hread

end

/-- An opcode's bytes hold it and nothing more. -/
theorem decodeBytes_code_rest {c : Code} {i : Instr} {rest : List Byte} (h : decodeBytes (Code.inThumb c) c.bytes = .ok (i, rest)) :
    rest = [] := by
  have htake : takeCode (Code.inThumb c) c.bytes = some (c, []) := by
    cases c with
    | arm w => exact congrArg (fun w => some (Code.arm w, [])) (wordOfBytes_fields w)
    | thumb half => exact congrArg (fun half => some (Code.thumb half, [])) (halfOfBytes_fields half)
  rw [decodeBytes, htake] at h
  simp only at h
  split at h <;> cases h
  rfl

theorem tableCode_inThumb (nbits w : Nat) : Code.inThumb (tableCode nbits w) = decide (nbits ≤ 16) := by
  by_cases h : nbits ≤ 16
  · rw [tableCode, if_pos h, decide_eq_true h]
    rfl
  · rw [tableCode, if_neg h, decide_eq_false h]
    rfl

/-- What the decoder reads from a table word is what its opcode's bytes decode to. -/
theorem decodeBytes_of_decodeTableWord {nbits w : Nat} {i : Instr} (h : decodeTableWord nbits w = some i) :
    decodeBytes (Code.inThumb (tableCode nbits w)) (tableCode nbits w).bytes = .ok (i, []) := by
  rw [decodeTableWord, ← tableCode_inThumb nbits w] at h
  split at h <;> cases h
  next rest hd => rw [hd, decodeBytes_code_rest hd]

/-- Settles O7: the bytes at the PC are those of the placed opcode, and the step runs what they decode to. -/
theorem placedWordRuns : Obligations.PlacedWordRuns := by
  intro s nbits w i hwf hdec
  have hpc := placeCode_pc s (tableCode nbits w)
  refine ⟨step_decoded (fun _ => ?_) ?_, hpc⟩
  · rw [State.withFetchWord, hpc]
    exact placeCode_busOk s _
  · rw [State.withFetchWord, hpc, placeCode_t, placeCode_bytes s _ hwf]
    exact decodeBytes_of_decodeTableWord hdec

/-! ## The checks of a transfer -/

theorem effAddr_isSome (idx : Index) (up : Bool) (b o : Word) : (effAddr idx up b o).wb.isSome = idx.writesBack := by
  cases idx <;> rfl

section
variable {idx : Index} {up load half : Bool} {b o : Word} {rn rd : Reg}

theorem not_baseIsDestination (h : load = true → idx.writesBack = true → rn ≠ rd) :
    ¬ (load = true ∧ (effAddr idx up b o).wb.isSome = true ∧ rn = rd) := by
  rw [effAddr_isSome]
  exact fun ⟨hl, hw, heq⟩ => h hl hw heq

theorem transferCheck_none {rdPc : Option Unpredictability} (hbase : load = true → idx.writesBack = true → rn ≠ rd)
    (hpc : rdPc.isSome = true → rd ≠ 15) (hodd : half = true → (address idx up b o).getLsbD 0 = false) :
    transferCheck load rdPc half rn rd (effAddr idx up b o) = none := by
  have hodd' : ¬ (half = true ∧ (effAddr idx up b o).addr.getLsbD 0 = true) := fun ⟨hh, h1⟩ => by cases (hodd hh).symm.trans h1
  unfold transferCheck
  rw [if_neg (not_baseIsDestination hbase)]
  cases rdPc with
  | none => exact if_neg hodd'
  | some reason => exact (if_neg (hpc rfl)).trans (if_neg hodd')

theorem transferCheck_base {rdPc : Option Unpredictability} (hw : idx.writesBack = true) (heq : rn = rd) :
    transferCheck true rdPc half rn rd (effAddr idx up b o) = some .baseIsDestination :=
  if_pos ⟨rfl, (effAddr_isSome idx up b o).trans hw, heq⟩

theorem transferCheck_pc {reason : Unpredictability} (hbase : load = true → idx.writesBack = true → rn ≠ rd) (hrd : rd = 15) :
    transferCheck load (some reason) half rn rd (effAddr idx up b o) = some reason :=
  (if_neg (not_baseIsDestination hbase)).trans (if_pos hrd)

theorem transferCheck_odd {reason : Unpredictability} (hbase : load = true → idx.writesBack = true → rn ≠ rd) (hrd : rd ≠ 15)
    (hodd : (address idx up b o).getLsbD 0 = true) :
    transferCheck load (some reason) true rn rd (effAddr idx up b o) = some .misalignedHalfword :=
  (if_neg (not_baseIsDestination hbase)).trans ((if_neg hrd).trans (if_pos ⟨rfl, hodd⟩))

end

/-! ## What a transfer answers -/

section
variable {ea : Except Fault EffAddr} {e : EffAddr} {f : Fault} {rdPc : Option Unpredictability} {reason : Unpredictability}
  {half : Bool} {bytes : Word → List Word} {value : State → Word → Word} {write : State → Word → State} {cond : Cond}
  {rn rd : Reg} {s : State} {bad : Word}

section
variable (he : Executes cond s)
include he

theorem loadOp_addressFault : loadOp (.error f) rdPc half bytes value cond rn rd s = .fault f := armInstr_of_executes he _

theorem storeOp_addressFault : storeOp (.error f) rdPc half bytes write cond rn rd s = .fault f := armInstr_of_executes he _

theorem loadOp_checkFails (hc : transferCheck true rdPc half rn rd e = some reason) :
    loadOp (.ok e) rdPc half bytes value cond rn rd s = .fault (.unpredictable reason) := by
  rw [loadOp, armInstr_of_executes he]
  simp only [hc]

theorem storeOp_checkFails (hc : transferCheck false rdPc half rn rd e = some reason) :
    storeOp (.ok e) rdPc half bytes write cond rn rd s = .fault (.unpredictable reason) := by
  rw [storeOp, armInstr_of_executes he]
  simp only [hc]

theorem storeOp_completes (hc : transferCheck false rdPc half rn rd e = none) (hb : BusOk s .write (bytes e.addr)) :
    storeOp (.ok e) rdPc half bytes write cond rn rd s = .next (commitWb rn e.wb (write s e.addr)).advance := by
  rw [storeOp, armInstr_of_executes he]
  simp only [hc, busCheck_ok hb]

theorem loadOp_busError (hc : transferCheck true rdPc half rn rd e = none) (hb : FirstBad s .read (bytes e.addr) bad) :
    loadOp (.ok e) rdPc half bytes value cond rn rd s = .fault (.busError bad .read) := by
  rw [loadOp, armInstr_of_executes he]
  simp only [hc, busCheck_bad hb]

theorem storeOp_busError (hc : transferCheck false rdPc half rn rd e = none) (hb : FirstBad s .write (bytes e.addr) bad) :
    storeOp (.ok e) rdPc half bytes write cond rn rd s = .fault (.busError bad .write) := by
  rw [storeOp, armInstr_of_executes he]
  simp only [hc, busCheck_bad hb]

end
end

/-! ## What a transfer that completes leaves -/

theorem pc_blockWriteback {wb : Bool} {rn : Reg} (h : wb = true → rn ≠ 15) (v : Word) (x : State) :
    (blockWriteback wb rn v x).pc = x.pc := by
  cases wb with
  | false => rfl
  | true => exact x.pc_setReg rn v (h rfl)

theorem Keeps.mono {s t : State} {ks ks' : List Slot} {ms : List Word} (h : Keeps s t ks ms) (hks : ks ⊆ ks') : Keeps s t ks' ms :=
  ⟨⟨fun k hk => h.1.slots k fun hmem => hk (hks hmem), h.1.bytes, h.1.params⟩, h.2⟩

theorem Keeps.pc {s t : State} {ms : List Word} (h : Keeps s t [] ms) : t.pc = s.pc := h.1.slots pcSlot List.not_mem_nil

theorem State.readByte_congr_mem {s t : State} (h : t.mem = s.mem) (a : Word) : t.readByte a = s.readByte a := by
  rw [State.readByte, h, State.readByte]

theorem State.readWord_congr_mem {s t : State} (h : t.mem = s.mem) (a : Word) : t.readWord a = s.readWord a :=
  State.readWord_congr fun b _ => State.readByte_congr_mem h b

section
variable {cond : Cond} {s : State} (he : Executes cond s) {idx : Index} {rn rd : Reg} {up half : Bool} {b o : Word}
  {rdPc : Option Unpredictability} {bytes : Word → List Word}
include he

/-- A load to r0..r14 completes: the value, the base written back, the PC advance, nothing else (R226). -/
theorem loadOp_results {value : State → Word → Word} (hbase : idx.writesBack = true → rn ≠ 15 ∧ rn ≠ rd) (hrd : rd ≠ 15)
    (hodd : half = true → (address idx up b o).getLsbD 0 = false) (hbus : BusOk s .read (bytes (address idx up b o))) :
    ∃ t, loadOp (.ok (effAddr idx up b o)) rdPc half bytes value cond rn rd s = .next t
      ∧ t.reg rd = value s (address idx up b o)
      ∧ (idx.writesBack = true → t.reg rn = moved up b o)
      ∧ t.pc = s.pc + 4
      ∧ Keeps s t (pcSlot :: mapReg s.mode rd :: baseSlot s.mode idx.writesBack rn) [] ∧ t.mem = s.mem := by
  have hcheck : transferCheck true rdPc half rn rd (effAddr idx up b o) = none :=
    transferCheck_none (fun _ hw => (hbase hw).2) (fun _ => hrd) hodd
  have hrn : idx.writesBack = true → rn ≠ 15 := fun hw => (hbase hw).1
  have hkeeps := (Keeps.refl s (pcSlot :: mapReg s.mode rd :: baseSlot s.mode idx.writesBack rn) []).writeback
    (wb := idx.writesBack) (rn := rn) (fun _ h => List.mem_cons_of_mem _ (List.mem_cons_of_mem _ h)) (moved up b o)
  refine ⟨((blockWriteback idx.writesBack rn (moved up b o) s).setReg rd (value s (address idx up b o))).advance, ?_, ?_, fun hw => ?_,
    ?_, ?_, ?_⟩
  · rw [loadOp_completes he hcheck hbus, finish, if_neg hrd, commitWb_effAddr, address]
  · rw [State.reg_advance _ _ hrd, State.reg_setReg_same _ _ _ hrd]
  · rw [State.reg_advance _ _ (hrn hw), State.reg_setReg_other _ _ _ _ (hrn hw) (hbase hw).2, hw, reg_blockWriteback (hrn hw)]
  · rw [State.pc_advance, State.pc_setReg _ _ _ hrd, pc_blockWriteback hrn]
  · exact (hkeeps.setReg (List.mem_cons_of_mem _ List.mem_cons_self) _).advance List.mem_cons_self
  · exact blockWriteback_mem _ _ _ _

/-- A store completes: the bytes it writes, the base written back, the PC advance, nothing else (R226). -/
theorem storeOp_results {write : State → Word → State} (hrn : idx.writesBack = true → rn ≠ 15) (hpc : rdPc.isSome = true → rd ≠ 15)
    (hodd : half = true → (address idx up b o).getLsbD 0 = false) (hbus : BusOk s .write (bytes (address idx up b o)))
    (hwrite : Keeps s (write s (address idx up b o)) [] (bytes (address idx up b o))) :
    ∃ t, storeOp (.ok (effAddr idx up b o)) rdPc half bytes write cond rn rd s = .next t
      ∧ t.mem = (write s (address idx up b o)).mem
      ∧ (idx.writesBack = true → t.reg rn = moved up b o)
      ∧ t.pc = s.pc + 4
      ∧ Keeps s t (pcSlot :: baseSlot s.mode idx.writesBack rn) (bytes (address idx up b o)) := by
  have hcheck : transferCheck false rdPc half rn rd (effAddr idx up b o) = none :=
    transferCheck_none (fun h => by cases h) hpc hodd
  have hkeeps := (hwrite.mono (List.nil_subset (pcSlot :: baseSlot s.mode idx.writesBack rn))).writeback
    (List.subset_cons_self _ _) (moved up b o)
  refine ⟨(blockWriteback idx.writesBack rn (moved up b o) (write s (address idx up b o))).advance, ?_, ?_, fun hw => ?_, ?_, ?_⟩
  · rw [storeOp_completes he hcheck hbus, commitWb_effAddr, address]
  · exact blockWriteback_mem _ _ _ _
  · rw [State.reg_advance _ _ (hrn hw), hw, reg_blockWriteback (hrn hw)]
  · rw [State.pc_advance, pc_blockWriteback hrn, hwrite.pc]
  · exact hkeeps.advance List.mem_cons_self

end

/-! ## Single data transfers -/

/-- The value a mode-2 load delivers (R230, R232). -/
def TransferRow.value (row : TransferRow) (s : State) (a : Word) : Word :=
  if row.byte then (s.readByte a).setWidth 32 else s.loadRotated a

/-- The bytes a mode-2 store of `rd` writes at an address, from the registers of `s` (R231, R233). -/
def TransferRow.write (row : TransferRow) (s : State) (rd : Reg) (t : State) (a : Word) : State :=
  if row.byte then t.writeByte a (fieldAt (s.reg rd) 0 8) else t.writeWord (align4 a) (s.regLate rd)

/-- A byte transfer's reason to stop at Rd = 15; a word transfer has none (R230 to R233). -/
def TransferRow.rdPc (row : TransferRow) (reason : Unpredictability) : Option Unpredictability :=
  if row.byte then some reason else none

theorem TransferRow.rdPc_isSome (row : TransferRow) (reason : Unpredictability) : (row.rdPc reason).isSome = row.byte := by
  unfold TransferRow.rdPc
  cases row.byte <;> rfl

/-- Every row of loads by its value and its check of Rd (R230, R232, R234). -/
theorem exec_loadRow_loadOp {row : TransferRow} (h : row ∈ loadRows) (cond : Cond) (up : Bool) (rn rd : Reg) (off : Offset2)
    (s : State) :
    exec (row.make cond up rn rd off) s =
      loadOp (modeTwo row.idx up rn off s) (row.rdPc .ldrbToPc) false row.bytes row.value cond rn rd s := by
  simp only [loadRows, List.mem_cons, List.not_mem_nil, or_false] at h
  obtain rfl | rfl | rfl | rfl | rfl | rfl | rfl | rfl := h <;> rfl

/-- Every row of stores, the T forms among them, stores at the address of its indexing form (R221, R235). -/
theorem exec_storeRow {row : TransferRow} (h : row ∈ storeRows) (cond : Cond) (up : Bool) (rn rd : Reg) (off : Offset2) (s : State) :
    exec (row.make cond up rn rd off) s =
      storeOp (modeTwo row.idx up rn off s) (row.rdPc .strbOfPc) false row.bytes (row.write s rd) cond rn rd s := by
  simp only [storeRows, List.mem_cons, List.not_mem_nil, or_false] at h
  obtain rfl | rfl | rfl | rfl | rfl | rfl | rfl | rfl := h <;> rfl

/-- Settles O25: each row is a load whose value is the rotated word or the byte. -/
theorem loadResults : Obligations.LoadResults := by
  intro row hrow cond up rn rd off s he hoff hbase hrd a hbus
  have hvalue : row.value s a =
      if row.byte then (s.readByte a).zeroExtend 32 else (s.readWord (align4 a)).rotateRight (8 * (a.toNat % 4)) := by
    rw [TransferRow.value, State.loadRotated_eq]
  rw [exec_loadRow_loadOp hrow, modeTwo_ok hoff fun hw => (hbase hw).1, ← hvalue]
  exact loadOp_results he hbase hrd (fun h => by cases h) hbus

theorem State.regLate_eq (s : State) (r : Reg) :
    s.regLate r = if r = 15 then (if s.pcReadModel = .plain then s.pc else s.pc + 12) else s.reg r := by
  by_cases hr : r = 15
  · subst hr
    exact pcRead_eq s true
  · rw [if_neg hr, s.regLate_eq_slot r hr, s.reg_eq_slot r hr]

theorem writeByte_keeps {s : State} (h : s.mem.wf = true) (a : Word) (v : Byte) : Keeps s (s.writeByte a v) [] (byteBytes a) := by
  refine ⟨⟨fun _ _ => rfl, fun b hb => ?_, ⟨rfl, rfl, rfl, rfl⟩⟩, rfl⟩
  rw [s.readByte_writeByte a b v h, if_neg fun e => hb (List.mem_singleton.mpr e)]

theorem writeWord_keeps {s : State} (h : s.mem.wf = true) (a v : Word) : Keeps s (s.writeWord (align4 a) v) [] (wordBytes a) :=
  ⟨⟨fun _ _ => rfl, fun _ hb => State.readByte_writeWord_other v h hb, ⟨rfl, rfl, rfl, rfl⟩⟩, rfl⟩

theorem TransferRow.write_keeps (row : TransferRow) {s : State} (h : s.mem.wf = true) (rd : Reg) (a : Word) :
    Keeps s (row.write s rd s a) [] (row.bytes a) := by
  unfold TransferRow.write TransferRow.bytes
  cases row.byte with
  | true => exact writeByte_keeps h a _
  | false => exact writeWord_keeps h a _

/-- Settles O27: each row is a store of the low byte or of the word, read late. -/
theorem storeResults : Obligations.StoreResults := by
  intro row hrow cond up rn rd off s he hoff hrn hrd hwf a hbus
  rw [exec_storeRow hrow, modeTwo_ok hoff hrn]
  obtain ⟨t, hnext, hmem, hrest⟩ := storeOp_results (b := s.reg rn) (o := off.value s) (rdPc := row.rdPc .strbOfPc)
    (write := row.write s rd) (rd := rd) (half := false) he hrn (fun h => hrd (row.rdPc_isSome _ ▸ h)) (fun h => by cases h) hbus
    (row.write_keeps hwf rd a)
  refine ⟨t, hnext, ?_, hrest⟩
  cases hbyte : row.byte with
  | true =>
    have hx : t.mem = (s.writeByte a (fieldAt (s.reg rd) 0 8)).mem := by simpa only [TransferRow.write, hbyte, if_true] using hmem
    rw [if_pos rfl, State.readByte_congr_mem hx, s.readByte_writeByte a a _ hwf, if_pos rfl]
  | false =>
    have hx : t.mem = (s.writeWord (align4 a) (s.regLate rd)).mem := by
      simpa only [TransferRow.write, hbyte, Bool.false_eq_true, if_false] using hmem
    rw [if_neg Bool.false_ne_true, State.readWord_congr_mem hx, s.readWord_writeWord _ _ hwf, State.regLate_eq]

/-! ## Halfword and signed transfers -/

theorem offset3_usable {off : Offset3} (h : off.usable = true) (s : State) : offset3 off s = .ok (off.value s) := by
  cases off with
  | imm => rfl
  | reg rm => exact if_neg (bne_iff_ne.mp h)

theorem offset3_pc {off : Offset3} (h : off.usable = false) (s : State) : offset3 off s = .error (.unpredictable .rmIsPc) := by
  cases off with
  | imm => cases h
  | reg rm => exact if_pos (bne_eq_false_iff_eq.mp h)

theorem checkBase_pc {idx : Index} (h : idx.writesBack = true) (up : Bool) (b o : Word) :
    checkBase 15 (effAddr idx up b o) = .error (.unpredictable .writebackToPc) :=
  if_pos ⟨(effAddr_isSome idx up b o).trans h, rfl⟩

section
variable {idx : Index} {rn : Reg} {off : Offset3} (up : Bool) (s : State)

theorem modeThree_rmIsPc (h : off.usable = false) : modeThree idx up rn off s = .error (.unpredictable .rmIsPc) := by
  rw [modeThree, offset3_pc h]

theorem modeThree_postW (h : off.usable = true) : modeThree .postW up rn off s = .error (.unpredictable .mode3PostIndexedW) := by
  rw [modeThree, offset3_usable h]
  rfl

/-- With a usable offset and a form that is no post-indexed W, the address is left to the check of the base (R225, R229). -/
theorem modeThree_checkBase (hidx : idx ≠ .postW) (h : off.usable = true) :
    modeThree idx up rn off s = checkBase rn (effAddr idx up (s.reg rn) (off.value s)) := by
  rw [modeThree, offset3_usable h]
  exact if_neg hidx

theorem modeThree_ok (hidx : idx ≠ .postW) (h : off.usable = true) (hrn : idx.writesBack = true → rn ≠ 15) :
    modeThree idx up rn off s = .ok (effAddr idx up (s.reg rn) (off.value s)) := by
  rw [modeThree_checkBase up s hidx h, checkBase_effAddr hrn]

end

theorem exec_halfLoadRow {row : HalfRow} (h : row ∈ halfLoadRows) (cond : Cond) (idx : Index) (up : Bool) (rn rd : Reg)
    (off : Offset3) (s : State) :
    exec (row.make cond idx up rn rd off) s =
      loadOp (modeThree idx up rn off s) (some row.rdPc) row.half row.bytes row.value cond rn rd s := by
  simp only [halfLoadRows, List.mem_cons, List.not_mem_nil, or_false] at h
  obtain rfl | rfl | rfl := h <;> rfl

theorem exec_strh (cond : Cond) (idx : Index) (up : Bool) (rn rd : Reg) (off : Offset3) (s : State) :
    exec (.strh cond idx up rn rd off) s =
      storeOp (modeThree idx up rn off s) (some .strhOfPc) true halfBytes (fun t a => t.writeHalf a (fieldAt (s.reg rd) 0 16))
        cond rn rd s := rfl

/-- STRH as a row beside the mode-3 loads (R237). -/
def strhRow : HalfRow := ⟨.strh, true, false, .strhOfPc⟩

theorem halfLoadRow_rdPc {row : HalfRow} (h : row ∈ halfLoadRows) : row.rdPc ≠ .strhOfPc := by
  simp only [halfLoadRows, List.mem_cons, List.not_mem_nil, or_false] at h
  obtain rfl | rfl | rfl := h <;> decide

section
variable {row : HalfRow} (h : row ∈ strhRow :: halfLoadRows) {cond : Cond} {s : State} (he : Executes cond s) {idx : Index} {up : Bool}
  {rn : Reg} (rd : Reg) {off : Offset3}
include h he

/-- A mode-3 transfer ends with the fault of its address (R453). -/
theorem exec_halfRow_addressFault {f : Fault} (hea : modeThree idx up rn off s = .error f) :
    exec (row.make cond idx up rn rd off) s = .fault f := by
  rcases List.mem_cons.mp h with rfl | h
  · exact (exec_strh _ _ _ _ _ _ _).trans (by rw [hea, storeOp_addressFault he])
  · rw [exec_halfLoadRow h, hea, loadOp_addressFault he]

/-- A mode-3 transfer ends with the check it fails; all but STRH are loads (R242). -/
theorem exec_halfRow_checkFails {e : EffAddr} {reason : Unpredictability} (hea : modeThree idx up rn off s = .ok e)
    (hc : transferCheck (decide (row.rdPc ≠ .strhOfPc)) (some row.rdPc) row.half rn rd e = some reason) :
    exec (row.make cond idx up rn rd off) s = .fault (.unpredictable reason) := by
  rcases List.mem_cons.mp h with rfl | h
  · exact (exec_strh _ _ _ _ _ _ _).trans (by rw [hea]; exact storeOp_checkFails he hc)
  · rw [decide_eq_true (halfLoadRow_rdPc h)] at hc
    rw [exec_halfLoadRow h, hea, loadOp_checkFails he hc]

end

/-- Settles O32: the checks of the address, then those of the transfer. -/
theorem halfwordStops : Obligations.HalfwordStops := by
  intro row hrow cond idx up rn rd off s he i a
  refine ⟨fun _ hoff => exec_halfRow_addressFault hrow he rd (modeThree_rmIsPc up s hoff), ?_, ?_, fun hidx hoff => ⟨?_, ?_, ?_, ?_⟩⟩
  · rintro rfl hoff
    exact exec_halfRow_addressFault hrow he rd (modeThree_postW up s hoff)
  · intro _ hoff
    exact ⟨_, exec_halfRow_addressFault hrow he rd (modeThree_rmIsPc up s hoff), .inl rfl⟩
  · rintro hw rfl
    exact exec_halfRow_addressFault hrow he rd ((modeThree_checkBase up s hidx hoff).trans (checkBase_pc hw up _ _))
  · intro hw hrn heq hload
    refine exec_halfRow_checkFails hrow he rd (modeThree_ok up s hidx hoff fun _ => hrn) ?_
    rw [decide_eq_true hload]
    exact transferCheck_base hw heq
  · intro hrn hrd
    exact exec_halfRow_checkFails hrow he rd (modeThree_ok up s hidx hoff hrn) (transferCheck_pc (fun _ hw => hrd ▸ hrn hw) hrd)
  · intro hbase hrd hhalf hodd
    refine exec_halfRow_checkFails hrow he rd (modeThree_ok up s hidx hoff fun hw => (hbase hw).1) ?_
    rw [hhalf]
    exact transferCheck_odd (fun hload hw => (hbase hw).2.resolve_right (of_decide_eq_true hload)) hrd hodd

/-! ## Bus errors -/

theorem exec_swp (cond : Cond) (rn rd rm : Reg) (s : State) :
    exec (.swp cond rn rd rm) s =
      swapOp wordBytes (fun t a => t.loadRotated a) (fun t a v => t.writeWord (align4 a) v) cond rn rd rm s := rfl

theorem exec_swpb (cond : Cond) (rn rd rm : Reg) (s : State) :
    exec (.swpb cond rn rd rm) s =
      swapOp byteBytes (fun t a => (t.readByte a).setWidth 32) (fun t a v => t.writeByte a (fieldAt v 0 8)) cond rn rd rm s := rfl

/-- A swap checks the bytes it reads, then the same bytes as written (R92, R241). -/
theorem swapOp_busError {bytes : Word → List Word} {value : State → Word → Word} {write : State → Word → Word → State} {cond : Cond}
    {rn rd rm : Reg} {s : State} {bad : Word} (he : Executes cond s) (hpc : ¬ (rn = 15 ∨ rd = 15 ∨ rm = 15))
    (hover : ¬ (rn = rd ∨ rn = rm)) :
    (FirstBad s .read (bytes (s.reg rn)) bad → swapOp bytes value write cond rn rd rm s = .fault (.busError bad .read))
    ∧ (BusOk s .read (bytes (s.reg rn)) → FirstBad s .write (bytes (s.reg rn)) bad →
        swapOp bytes value write cond rn rd rm s = .fault (.busError bad .write)) := by
  rw [swapOp, armInstr_of_executes he, if_neg hpc, if_neg hover]
  exact ⟨fun hbad => busCheck_bad hbad _, fun hok hbad => (busCheck_ok hok _).trans (busCheck_bad hbad _)⟩

theorem exec_stmRow {row : BlockForm × (Cond → Bool → Reg → BitVec 16 → Instr)} (h : row ∈ stmRows) (cond : Cond) (wb : Bool)
    (rn : Reg) (list : BitVec 16) (s : State) : exec (row.2 cond wb rn list) s = stmOp row.1 cond wb rn list s := by
  simp only [stmRows, List.mem_cons, List.not_mem_nil, or_false] at h
  obtain rfl | rfl | rfl | rfl := h <;> rfl

theorem holdsLower_iff {rn : Reg} {list : BitVec 16} :
    holdsLower rn list = true ↔ ∃ q : Reg, q < rn ∧ list.getLsbD q.val = true := by
  simp only [holdsLower, List.any_eq_true, mem_regsOf, decide_eq_true_eq, and_comm]

section
variable {form : BlockForm} {cond : Cond} {wb : Bool} {rn : Reg} {list : BitVec 16} {s : State} {bad : Word} (he : Executes cond s)
  (hl : list ≠ 0) (hrn : rn ≠ 15)
include he hl hrn

theorem ldmOp_busError (hwb : wb = true → list.getLsbD rn.val = false) (hbad : FirstBad s .read (blockBytes form (s.reg rn) list) bad) :
    ldmOp form cond wb rn list s = .fault (.busError bad .read) := by
  rw [ldmOp, armInstr_of_executes he, blockCheck_ok hl hrn, if_neg fun h => by cases (hwb h.1).symm.trans h.2]
  exact busCheck_bad hbad _

theorem stmOp_busError (hlow : ¬ (wb = true ∧ list.getLsbD rn.val = true ∧ ∃ q : Reg, q < rn ∧ list.getLsbD q.val = true))
    (hbad : FirstBad s .write (blockBytes form (s.reg rn) list) bad) :
    stmOp form cond wb rn list s = .fault (.busError bad .write) := by
  rw [← holdsLower_iff] at hlow
  rw [stmOp, armInstr_of_executes he, blockCheck_ok hl hrn, if_neg hlow]
  exact busCheck_bad hbad _

section
variable (hs : ¬ NoSpsr s)
include hs

theorem execLdmReturn_busError (hwb : wb = true → list.getLsbD rn.val = false)
    (hbad : FirstBad s .read (blockBytes form (s.reg rn) list) bad) :
    execLdmReturn cond form wb rn list s = .fault (.busError bad .read) := by
  rw [execLdmReturn, armInstr_of_executes he, blockCheck_ok hl hrn, if_neg (fun h => by cases (hwb h.1).symm.trans h.2),
    if_neg (mt curSpsr_none.mp hs)]
  exact busCheck_bad hbad _

theorem execLdmUser_busError (hbad : FirstBad s .read (blockBytes form (s.reg rn) list) bad) :
    execLdmUser cond form false rn list s = .fault (.busError bad .read) := by
  rw [execLdmUser, armInstr_of_executes he, blockCheck_ok hl hrn, if_neg Bool.false_ne_true, if_neg hs]
  exact busCheck_bad hbad _

theorem execStmUser_busError (hbad : FirstBad s .write (blockBytes form (s.reg rn) list) bad) :
    execStmUser cond form false rn list s = .fault (.busError bad .write) := by
  rw [execStmUser, armInstr_of_executes he, blockCheck_ok hl hrn, if_neg Bool.false_ne_true, if_neg hs]
  exact busCheck_bad hbad _

end
end

/-- Settles O50: every transfer reaches its bus pre-check once its other checks have passed. -/
theorem busErrorStops : Obligations.BusErrorStops := by
  intro cond up rn rd s bad he
  refine ⟨fun row hrow off hoff hbase hrd hbad => ?_, fun row hrow off hoff hrn hrd hbad => ?_,
    fun row hrow idx off hidx hoff hbase hrd hodd hbad => ?_, fun idx off hidx hoff hrn hrd hodd hbad => ?_,
    fun rm hrn hrd hrm hne hnm => ?_,
    fun wb list hrn hl => ⟨fun row hrow hwb hbad => ?_, fun row hrow hlow hbad => ?_, fun form hs => ⟨fun hwb hbad => ?_, ?_, ?_⟩⟩⟩
  · rw [exec_loadRow_loadOp hrow, modeTwo_ok hoff fun hw => (hbase hw).1]
    refine loadOp_busError he (transferCheck_none (fun _ hw => (hbase hw).2) (fun h => ?_) fun h => by cases h) hbad
    exact hrd (row.rdPc_isSome _ ▸ h)
  · rw [exec_storeRow hrow, modeTwo_ok hoff hrn]
    refine storeOp_busError he (transferCheck_none (fun h => by cases h) (fun h => ?_) fun h => by cases h) hbad
    exact hrd (row.rdPc_isSome _ ▸ h)
  · rw [exec_halfLoadRow hrow, modeThree_ok up s hidx hoff fun hw => (hbase hw).1]
    exact loadOp_busError he (transferCheck_none (fun _ hw => (hbase hw).2) (fun _ => hrd) hodd) hbad
  · rw [exec_strh, modeThree_ok up s hidx hoff hrn]
    exact storeOp_busError he (transferCheck_none (fun h => by cases h) (fun _ => hrd) fun _ => hodd) hbad
  · have hpc : ¬ (rn = 15 ∨ rd = 15 ∨ rm = 15) := not_or.mpr ⟨hrn, not_or.mpr ⟨hrd, hrm⟩⟩
    have hover : ¬ (rn = rd ∨ rn = rm) := not_or.mpr ⟨hne, hnm⟩
    obtain ⟨hread, hwrite⟩ := swapOp_busError (bad := bad) he hpc hover
    obtain ⟨hreadB, hwriteB⟩ := swapOp_busError (bad := bad) he hpc hover
    rw [exec_swp, exec_swpb]
    exact ⟨hread, hwrite, hreadB, hwriteB⟩
  · rw [exec_ldmRow hrow]
    exact ldmOp_busError he hl hrn hwb hbad
  · rw [exec_stmRow hrow]
    exact stmOp_busError he hl hrn hlow hbad
  · exact execLdmReturn_busError he hl hrn hs hwb hbad
  · rintro rfl hbad
    exact execLdmUser_busError he hl hrn hs hbad
  · rintro rfl hbad
    exact execStmUser_busError he hl hrn hs hbad

end Sys2Proof.Machine
end

section
/-! PROOFS of the family 40_condition: the condition table (R170 to R172), and the gate of every ARM word (R173, R174). -/

namespace Sys2Proof

/-- The condition field of an ARM instruction (R111); a THUMB instruction has none. -/
def Instr.cond? : Instr → Option Cond
  | .and c .. | .eor c .. | .sub c .. | .rsb c .. | .add c .. | .adc c .. | .sbc c .. | .rsc c .. | .tst c .. | .teq c ..
  | .cmp c .. | .cmn c .. | .orr c .. | .mov c .. | .bic c .. | .mvn c .. | .mul c .. | .mla c .. | .umull c .. | .umlal c ..
  | .smull c .. | .smlal c .. | .swp c .. | .swpb c .. | .ldr c .. | .str c .. | .ldrb c .. | .strb c .. | .ldrt c ..
  | .strt c .. | .ldrbt c .. | .strbt c .. | .ldrh c .. | .strh c .. | .ldrsb c .. | .ldrsh c .. | .ldmia c .. | .ldmib c ..
  | .ldmda c .. | .ldmdb c .. | .stmia c .. | .stmib c .. | .stmda c .. | .stmdb c .. | .ldmReturn c .. | .ldmUser c ..
  | .stmUser c .. | .b c .. | .bl c .. | .bx c .. | .mrs c .. | .msrCpsrReg c .. | .msrSpsrReg c .. | .msrCpsrImm c ..
  | .msrSpsrImm c .. | .swi c .. | .und c .. | .cdp c .. | .mcr c .. | .mrc c .. | .stc c .. | .ldc c .. => some c
  | _ => none

/-! ## The condition of a decoded word is its bits 31:28 (R111, R170) -/

theorem cond?_decodeMultiply (w : Word) : (decodeMultiply w).cond? = some (condOf w) := by
  unfold decodeMultiply
  split <;> rfl

theorem cond?_decodeMultiplyLong (w : Word) : (decodeMultiplyLong w).cond? = some (condOf w) := by
  unfold decodeMultiplyLong
  split <;> rfl

theorem cond?_decodeSwap (w : Word) : (decodeSwap w).cond? = some (condOf w) := by
  unfold decodeSwap
  split <;> rfl

theorem cond?_decodeSingle (w : Word) : (decodeSingle w).cond? = some (condOf w) := by
  unfold decodeSingle
  dsimp only
  split <;> rfl

theorem cond?_decodeBlock (w : Word) : (decodeBlock w).cond? = some (condOf w) := by
  unfold decodeBlock
  dsimp only
  split
  · split <;> rfl
  · rfl
  · split <;> rfl
  · split <;> rfl

/-- A decoder of one family, which may reject the word, answers only with instructions under the word's condition. -/
abbrev HasCondOf (w : Word) (d : Decoded) : Prop := ∀ i, d = .ok i → i.cond? = some (condOf w)

theorem HasCondOf.ok {w : Word} {i : Instr} (h : i.cond? = some (condOf w)) : HasCondOf w (.ok i) := by
  rintro _ ⟨⟩
  exact h

theorem HasCondOf.error (w : Word) (e : DecodeError) : HasCondOf w (.error e) := by
  rintro _ ⟨⟩

theorem hasCondOf_decodeDataProcessing (w : Word) : HasCondOf w (decodeDataProcessing w) := by
  unfold decodeDataProcessing
  dsimp only
  split
  -- the test opcodes, rejected without S (R133 item 1)
  case h_9 | h_10 | h_11 | h_12 =>
    split
    · exact .ok rfl
    · exact .error _ _
  all_goals exact .ok rfl

theorem hasCondOf_decodeHalfword (w : Word) : HasCondOf w (decodeHalfword w) := by
  unfold decodeHalfword
  dsimp only
  split
  -- the legal SH and L, rejected with a scaled shift (R133 item 4)
  case h_4 =>
    split
    · exact .error _ _
    · split <;> exact .ok rfl
  all_goals exact .error _ _

theorem hasCondOf_decodeUnmatched (w : Word) : HasCondOf w (decodeUnmatched w) := by
  unfold decodeUnmatched
  split
  · split <;> exact .ok rfl
  · split
    · split
      · split <;> exact .ok rfl
      · exact .ok rfl
    · exact .error _ _

theorem hasCondOf_decodeArm (w : Word) : HasCondOf w (decodeArm w) := by
  unfold decodeArm
  cases classifyArm w with
  | branchExchange | softwareInterrupt | undefined | mrs => exact .ok rfl
  | branch | msrReg | msrImm => dsimp only; split <;> exact .ok rfl
  | blockTransfer => exact .ok (cond?_decodeBlock w)
  | singleDataTransfer => exact .ok (cond?_decodeSingle w)
  | singleDataSwap => exact .ok (cond?_decodeSwap w)
  | multiply => exact .ok (cond?_decodeMultiply w)
  | multiplyLong => exact .ok (cond?_decodeMultiplyLong w)
  | halfwordReg | halfwordImm => exact hasCondOf_decodeHalfword w
  | dataProcessing => exact hasCondOf_decodeDataProcessing w
  | unmatched => exact hasCondOf_decodeUnmatched w

end Sys2Proof

namespace Sys2Proof.Machine

/-! ## The gate -/

/-- Every ARM instruction stands behind the gate of its own condition (R173). -/
theorem exec_gate {i : Instr} {c : Cond} (hi : i.cond? = some c) (s : State) : ∃ body, exec i s = armInstr c s body := by
  cases i <;> cases hi <;> exact ⟨_, rfl⟩

/-- Every ARM word, decoded or rejected, stands behind the gate of its bits 31:28 (R174). -/
theorem stepOpcode_gate {s : State} (ht : s.t = false) (w : Word) : ∃ body, stepOpcode s w = armInstr (condOf w) s body := by
  cases hd : decodeArm w with
  | ok i =>
    rw [stepOpcode_arm ht hd]
    exact exec_gate (hasCondOf_decodeArm w i hd) s
  | error e => exact ⟨_, stepOpcode_illegal ht hd⟩

/-- Settles O8: behind its gate, a word whose condition fails leaves only the PC advance. -/
theorem failedConditionOnlyAdvances : Obligations.FailedConditionOnlyAdvances := by
  intro s w r ht hc hr
  obtain ⟨body, hgate⟩ := stepOpcode_gate ht w
  refine ⟨s.advance, ?_, s.pc_advance, (Keeps.refl s _ _).advance List.mem_cons_self, s.advance_mem⟩
  rw [answers_eq ht hr, hgate]
  exact armInstr_failed ht hc body

/-! ## The condition table -/

/-- Settles O9: the bits read are those of the definitions, and the 16 × 16 entries of R171 are checked one by one. -/
theorem conditionTable : Obligations.ConditionTable :=
  ⟨fun _ _ => rfl, fun _ _ => rfl, by decide⟩

end Sys2Proof.Machine
end

section
/-! PROOFS of the family 41_shifter: the Barrel Shifter of addressing mode 1 (R191 to R202) and the operand checks of data processing
(R197, R354). -/

namespace Sys2Proof.Machine

/-! ## Shifted and rotated words -/

/-- Bit `i` of a rotation to the right, in one case where the library has two. -/
theorem getLsbD_rotateRight_word (m : Word) (k : Nat) {i : Nat} (hi : i < 32) :
    (m.rotateRight k).getLsbD i = m.getLsbD ((i + k) % 32) := by
  rw [BitVec.getLsbD_rotateRight]
  by_cases hwrap : i < 32 - k % 32
  · rw [decide_eq_true hwrap, cond_true, show k % 32 + i = (i + k) % 32 by omega]
  · rw [decide_eq_false hwrap, cond_false, decide_eq_true hi, Bool.true_and, show i - (32 - k % 32) = (i + k) % 32 by omega]

theorem rotateRight_zero_word (m : Word) : m.rotateRight 0 = m := by
  apply BitVec.eq_of_getLsbD_eq
  intro i hi
  rw [getLsbD_rotateRight_word m 0 hi, Nat.add_zero, Nat.mod_eq_of_lt hi]

/-- Past the width an arithmetic shift leaves only the sign (R200). -/
theorem sshiftRight_eq_signFill (m : Word) {k : Nat} (hk : 32 ≤ k) : m.sshiftRight k = signFill m := by
  have hsign : m.msb = m.getLsbD 31 := BitVec.msb_eq_getLsbD_last m
  apply BitVec.eq_of_getLsbD_eq
  intro i hi
  rw [BitVec.getLsbD_sshiftRight, if_neg (show ¬ k + i < 32 by omega), decide_eq_false (show ¬ 32 ≤ i by omega), hsign, signFill]
  cases m.getLsbD 31 with
  | false => exact BitVec.getLsbD_zero.symm
  | true => exact (BitVec.getLsbD_allOnes.trans (decide_eq_true hi)).symm

theorem toNat_shiftLeft_word (m : Word) (k : Nat) : (m <<< k).toNat = m.toNat * 2 ^ k % 2 ^ 32 := by
  rw [BitVec.toNat_shiftLeft, Nat.shiftLeft_eq]

theorem toNat_shiftRight_word (m : Word) (k : Nat) : (m >>> k).toNat = m.toNat / 2 ^ k := by
  rw [BitVec.toNat_ushiftRight, Nat.shiftRight_eq_div_pow]

theorem toInt_sshiftRight_word (m : Word) (k : Nat) : (m.sshiftRight k).toInt = m.toInt / 2 ^ k := by
  rw [BitVec.toInt_sshiftRight, Int.shiftRight_eq_div_pow]
  exact congrArg (m.toInt / ·) (Int.natCast_pow 2 k)

/-! ## The value of a register-specified shift -/

section
variable (m : Word) (k : Nat) (c : Bool)

@[simp] theorem shiftByReg_zero (ty : ShiftType) : shiftByReg m ty 0 c = { value := m, carry := c } := rfl

/-- The amounts of R198 by ranges, put back into one shift: 0, below 32, 32, and above. -/
@[simp] theorem shiftByReg_lsl_value : (shiftByReg m .lsl k c).value = m <<< k := by
  simp only [shiftByReg]
  by_cases h0 : k = 0
  · rw [if_pos h0, h0, BitVec.shiftLeft_zero]
  rw [if_neg h0]
  by_cases hlt : k < 32
  · rw [if_pos hlt]
  · rw [if_neg hlt, BitVec.shiftLeft_eq_zero (by omega)]
    split <;> rfl

@[simp] theorem shiftByReg_lsr_value : (shiftByReg m .lsr k c).value = m >>> k := by
  simp only [shiftByReg]
  by_cases h0 : k = 0
  · rw [if_pos h0, h0, BitVec.ushiftRight_zero]
  rw [if_neg h0]
  by_cases hlt : k < 32
  · rw [if_pos hlt]
  · rw [if_neg hlt, BitVec.ushiftRight_eq_zero (by omega)]
    split <;> rfl

@[simp] theorem shiftByReg_asr_value : (shiftByReg m .asr k c).value = m.sshiftRight k := by
  simp only [shiftByReg]
  by_cases h0 : k = 0
  · rw [if_pos h0, h0, BitVec.sshiftRight_zero]
  rw [if_neg h0]
  by_cases hlt : k < 32
  · rw [if_pos hlt]
  · rw [if_neg hlt, sshiftRight_eq_signFill m (by omega)]

@[simp] theorem shiftByReg_ror_value : (shiftByReg m .ror k c).value = m.rotateRight k := by
  have hmod : m.rotateRight (k % 32) = m.rotateRight k := BitVec.rotateRight_mod_eq_rotateRight
  simp only [shiftByReg]
  by_cases h0 : k = 0
  · rw [if_pos h0, h0, rotateRight_zero_word]
  rw [if_neg h0, ← hmod]
  by_cases hr : k % 32 = 0
  · rw [if_pos hr, hr, rotateRight_zero_word]
  · rw [if_neg hr]

end

/-! ## Its carry-out, the last bit shifted out -/

section
variable (m : Word) {k : Nat} (hk : k ≠ 0) (c : Bool)
include hk

theorem shiftByReg_lsl_carry : (shiftByReg m .lsl k c).carry = (m.toNat * 2 ^ k).testBit 32 := by
  simp only [Nat.testBit_mul_two_pow, BitVec.testBit_toNat, shiftByReg, if_neg hk]
  by_cases hlt : k < 32
  · rw [if_pos hlt, decide_eq_true (show k ≤ 32 by omega), Bool.true_and]
  rw [if_neg hlt]
  by_cases h32 : k = 32
  · rw [if_pos h32, h32, decide_eq_true (Nat.le_refl 32), Bool.true_and]
  · rw [if_neg h32, decide_eq_false (show ¬ k ≤ 32 by omega), Bool.false_and]

theorem shiftByReg_lsr_carry : (shiftByReg m .lsr k c).carry = m.getLsbD (k - 1) := by
  simp only [shiftByReg, if_neg hk]
  by_cases hlt : k < 32
  · rw [if_pos hlt]
  rw [if_neg hlt]
  by_cases h32 : k = 32
  · rw [if_pos h32, h32]
  · rw [if_neg h32, BitVec.getLsbD_of_ge m _ (by omega)]

theorem shiftByReg_asr_carry : (shiftByReg m .asr k c).carry = m.getLsbD (min k 32 - 1) := by
  simp only [shiftByReg, if_neg hk]
  by_cases hlt : k < 32
  · rw [if_pos hlt, Nat.min_eq_left (Nat.le_of_lt hlt)]
  · rw [if_neg hlt, Nat.min_eq_right (Nat.le_of_not_lt hlt)]

theorem shiftByReg_ror_carry : (shiftByReg m .ror k c).carry = m.getLsbD ((31 + k) % 32) := by
  simp only [shiftByReg, if_neg hk]
  by_cases hr : k % 32 = 0
  · rw [if_pos hr, show (31 + k) % 32 = 31 by omega]
  · rw [if_neg hr, show (31 + k) % 32 = k % 32 - 1 by omega]

end

/-! ## A shift by an immediate as one by a register -/

theorem toNat_amount_ne_zero {k : BitVec 5} (hk : k ≠ 0) : k.toNat ≠ 0 := fun h => hk (BitVec.eq_of_toNat_eq h)

/-- The amount of LSR and ASR by an immediate is 1 to 32. -/
theorem rightAmount_range (k : BitVec 5) : (if k = 0 then 32 else k.toNat) ≠ 0 ∧ (if k = 0 then 32 else k.toNat) ≤ 32 := by
  by_cases hk : k = 0
  · rw [if_pos hk]; decide
  · rw [if_neg hk]
    exact ⟨toNat_amount_ne_zero hk, Nat.le_of_lt k.isLt⟩

section
variable (m : Word) (c : Bool)

/-- "As above with Rs" (R198 to R201), read from right to left. -/
theorem shiftByImm_eq_shiftByReg {k : BitVec 5} (hk : k ≠ 0) (ty : ShiftType) :
    shiftByImm m ty k c = shiftByReg m ty k.toNat c := by
  have h0 : k.toNat ≠ 0 := toNat_amount_ne_zero hk
  have hlt : k.toNat < 32 := k.isLt
  cases ty <;> simp [shiftByImm, shiftByReg, h0, hlt, Nat.mod_eq_of_lt]

theorem shiftByImm_lsl (k : BitVec 5) : shiftByImm m .lsl k c = shiftByReg m .lsl k.toNat c := by
  by_cases hk : k = 0
  · rw [hk]; rfl
  · exact shiftByImm_eq_shiftByReg m c hk .lsl

/-- LSR #0 means a shift by 32 (R194). -/
theorem shiftByImm_lsr (k : BitVec 5) : shiftByImm m .lsr k c = shiftByReg m .lsr (if k = 0 then 32 else k.toNat) c := by
  by_cases hk : k = 0
  · rw [if_pos hk, hk]; rfl
  · rw [if_neg hk]
    exact shiftByImm_eq_shiftByReg m c hk .lsr

/-- ASR #0 means a shift by 32 (R195). -/
theorem shiftByImm_asr (k : BitVec 5) : shiftByImm m .asr k c = shiftByReg m .asr (if k = 0 then 32 else k.toNat) c := by
  by_cases hk : k = 0
  · rw [if_pos hk, hk]; rfl
  · rw [if_neg hk]
    exact shiftByImm_eq_shiftByReg m c hk .asr

/-- ROR #0 means RRX, the rotation by one through C (R202). -/
theorem getLsbD_shiftByImm_rrx (i : Nat) :
    (shiftByImm m .ror 0 c).value.getLsbD i = if i = 31 then c else m.getLsbD (i + 1) := by
  have hrrx : (shiftByImm m .ror 0 c).value = placeBit 31 c ||| m >>> 1 := rfl
  rw [hrrx, BitVec.getLsbD_or, getLsbD_placeBit, BitVec.getLsbD_ushiftRight, Nat.add_comm 1 i]
  by_cases h : i = 31
  · rw [if_pos h, h, BitVec.getLsbD_of_ge m (31 + 1) (by decide), Bool.or_false]
    exact Bool.true_and c
  · rw [if_neg h, decide_eq_false h, Bool.and_false, Bool.false_and, Bool.false_or]

end

/-! ## The statements of the shifter -/

/-- Settles O12: a rotation of the widened byte moves its bits alone. -/
theorem shifterImmediate : Obligations.ShifterImmediate := by
  intro rot imm8 s
  refine ⟨fun i hi => ?_, rfl⟩
  have hbit : (imm8.setWidth 32).getLsbD ((i + 2 * rot.toNat) % 32) = imm8.getLsbD ((i + 2 * rot.toNat) % 32) := by
    rw [BitVec.getLsbD_setWidth, decide_eq_true (Nat.mod_lt _ (by decide)), Bool.true_and]
  exact (getLsbD_rotateRight_word _ _ hi).trans hbit

/-- Settles O13: each form is a shift by a register's amount, but for RRX. -/
theorem shifterByImmediate : Obligations.ShifterByImmediate := by
  intro k rm s m n out
  obtain ⟨hn, hn32⟩ : n ≠ 0 ∧ n ≤ 32 := rightAmount_range k
  have hlsl : out .lsl = shiftByReg m .lsl k.toNat s.c := shiftByImm_lsl m s.c k
  have hlsr : out .lsr = shiftByReg m .lsr n s.c := shiftByImm_lsr m s.c k
  have hasr : out .asr = shiftByReg m .asr n s.c := shiftByImm_asr m s.c k
  have hror : out .ror = shiftByImm m .ror k s.c := rfl
  rw [hlsl, hlsr, hasr, hror]
  refine ⟨⟨?_, ?_⟩, ⟨?_, ?_⟩, ⟨?_, ?_⟩, fun hk => ⟨fun i hi => ?_, ?_⟩, ?_⟩
  · rw [shiftByReg_lsl_value, toNat_shiftLeft_word]
  · by_cases hk : k = 0
    · rw [if_pos hk, hk]; rfl
    · rw [if_neg hk]
      exact shiftByReg_lsl_carry m (toNat_amount_ne_zero hk) s.c
  · rw [shiftByReg_lsr_value, toNat_shiftRight_word]
  · exact shiftByReg_lsr_carry m hn s.c
  · rw [shiftByReg_asr_value, toInt_sshiftRight_word]
  · rw [shiftByReg_asr_carry m hn, Nat.min_eq_left hn32]
  · rw [shiftByImm_eq_shiftByReg m s.c hk, shiftByReg_ror_value, getLsbD_rotateRight_word m _ hi]
  · have h0 : k.toNat ≠ 0 := toNat_amount_ne_zero hk
    rw [shiftByImm_eq_shiftByReg m s.c hk, shiftByReg_ror_carry m h0, show (31 + k.toNat) % 32 = k.toNat - 1 by omega]
  · rintro rfl
    exact ⟨fun i hi => (getLsbD_shiftByImm_rrx m s.c i).trans (if_neg (by omega)), getLsbD_shiftByImm_rrx m s.c 31, rfl⟩

theorem shiftOperand_regShift (rs rm : Reg) (ty : ShiftType) (s : State) :
    shiftOperand (.regShift rs ty rm) s = shiftByReg (s.regLate rm) ty ((s.reg rs).toNat % 256) s.c := by
  have hbyte : (fieldAt (s.reg rs) 0 8).toNat = (s.reg rs).toNat % 256 :=
    (toNat_fieldAt _ 0 8).trans (congrArg (· % 256) (Nat.div_one _))
  exact congrArg (shiftByReg (s.regLate rm) ty · s.c) hbyte

/-- Settles O14: the values and the carry-outs of a shift by the low byte of Rs. -/
theorem shifterByRegister : Obligations.ShifterByRegister := by
  intro rs rm s m n out
  have hout : ∀ ty, out ty = shiftByReg m ty n s.c := fun ty => shiftOperand_regShift rs rm ty s
  simp only [hout]
  refine ⟨fun hn ty => ?_, fun hn => ⟨⟨?_, ?_⟩, ⟨?_, ?_⟩, ⟨?_, ?_⟩, fun i hi => ?_, ?_⟩⟩
  · rw [hn, shiftByReg_zero]
  · rw [shiftByReg_lsl_value, toNat_shiftLeft_word]
  · exact shiftByReg_lsl_carry m hn s.c
  · rw [shiftByReg_lsr_value, toNat_shiftRight_word]
  · exact shiftByReg_lsr_carry m hn s.c
  · rw [shiftByReg_asr_value, toInt_sshiftRight_word]
  · exact shiftByReg_asr_carry m hn s.c
  · rw [shiftByReg_ror_value, getLsbD_rotateRight_word m n hi]
  · rw [shiftByReg_ror_value, shiftByReg_ror_carry m hn, getLsbD_rotateRight_word m n (by decide)]

/-! ## The operand checks of data processing -/

/-- The four test opcodes run `testOp` (R351, R364 to R367). -/
theorem exec_testRow {row : DataRow TestMaker} (h : row ∈ testRows) :
    ∃ f : AluIn → AluOut, ∀ cond rn rd op s, exec (row.make cond rn rd op) s = testOp f cond rn rd op s := by
  simp only [testRows, List.mem_cons, List.not_mem_nil, or_false] at h
  obtain rfl | rfl | rfl | rfl := h
  · exact ⟨aluAnd, fun _ _ _ _ _ => rfl⟩
  · exact ⟨aluEor, fun _ _ _ _ _ => rfl⟩
  · exact ⟨aluSub, fun _ _ _ _ _ => rfl⟩
  · exact ⟨aluAdd, fun _ _ _ _ _ => rfl⟩

section
variable {cond : Cond} {s : State} (he : Executes cond s) (f : AluIn → AluOut) (rn : Reg) {rd : Reg} {op : ShifterOperand}
include he

theorem dataOp_rsIsPc (hop : rsIsPc op = true) (sf : Bool) (rd : Reg) :
    dataOp f cond sf rn rd op s = .fault (.unpredictable .rsIsPc) := by
  rw [dataOp, armInstr_of_executes he, if_pos hop]

theorem testOp_rdIsPc (op : ShifterOperand) : testOp f cond rn 15 op s = .fault (.unpredictable .testRdIsPc) := by
  rw [testOp, armInstr_of_executes he, if_pos rfl]

theorem testOp_rsIsPc (hrd : rd ≠ 15) (hop : rsIsPc op = true) : testOp f cond rn rd op s = .fault (.unpredictable .rsIsPc) := by
  rw [testOp, armInstr_of_executes he, if_neg hrd, if_pos hop]

end

/-- Settles O20: the checks of the two shapes, that of Rd first in a test opcode. -/
theorem dataProcessingStops : Obligations.DataProcessingStops := by
  constructor
  · intro row hrow cond sf rn rd op s he hop
    obtain ⟨f, -, hexec⟩ := exec_resultRow hrow
    rw [hexec, dataOp_rsIsPc he f rn hop]
  · intro row hrow cond rn rd op s he
    obtain ⟨f, hexec⟩ := exec_testRow hrow
    simp only [hexec]
    refine ⟨?_, fun hrd hop => testOp_rsIsPc he f rn hrd hop, ?_⟩
    · rintro rfl -
      exact testOp_rdIsPc he f rn op
    · rintro rfl -
      exact ⟨_, testOp_rdIsPc he f rn op, .inl rfl⟩

end Sys2Proof.Machine
end

section
/-! PROOFS of the family 42_load_store: the indexing forms (R221), the checks of mode 2 (R224, R225, R232, R233, R242), the halfword
transfers that complete (R236 to R239), and the swaps (R241). -/

namespace Sys2Proof.Machine

/-! ## Indexing forms -/

/-- Settles O24: one form at a time. -/
theorem addressForms : Obligations.AddressForms := by
  intro idx up base offset
  cases idx with
  | offset | pre | post | postW => rfl

/-! ## The checks of mode 2 -/

theorem offset2_pc {off : Offset2} (h : off.usable = false) (s : State) : offset2 off s = .error (.unpredictable .rmIsPc) := by
  cases off with
  | imm => cases h
  | reg amount ty rm => exact if_pos (bne_eq_false_iff_eq.mp h)

section
variable {off : Offset2} {idx : Index} (up : Bool) (s : State)

theorem modeTwo_rmIsPc (h : off.usable = false) (rn : Reg) : modeTwo idx up rn off s = .error (.unpredictable .rmIsPc) := by
  rw [modeTwo, offset2_pc h]

theorem modeTwo_writebackToPc (h : off.usable = true) (hw : idx.writesBack = true) :
    modeTwo idx up 15 off s = .error (.unpredictable .writebackToPc) := by
  rw [modeTwo, offset2_usable h]
  exact checkBase_pc hw up _ _

end

/-- A mode-2 transfer, load or store, ends with the fault of its address (R453). -/
theorem exec_transferRow_addressFault {row : TransferRow} (h : row ∈ loadRows ++ storeRows) {cond : Cond} {s : State}
    (he : Executes cond s) {up : Bool} {rn : Reg} (rd : Reg) {off : Offset2} {f : Fault} (hea : modeTwo row.idx up rn off s = .error f) :
    exec (row.make cond up rn rd off) s = .fault f := by
  rcases List.mem_append.mp h with h | h
  · rw [exec_loadRow_loadOp h, hea, loadOp_addressFault he]
  · rw [exec_storeRow h, hea, storeOp_addressFault he]

theorem TransferRow.rdPc_byte {row : TransferRow} (h : row.byte = true) (reason : Unpredictability) : row.rdPc reason = some reason :=
  if_pos h

/-- Settles O31: the checks of the address, then those of the transfer. -/
theorem transferStops : Obligations.TransferStops := by
  refine ⟨fun row hrow cond up rn rd off s he => ⟨fun hoff => ?_, ?_⟩,
    fun row hrow cond up rn rd off s he hoff => ⟨fun hw hrn heq => ?_, fun hbyte hrn hrd => ?_⟩,
    fun row hrow cond up rn rd off s he hoff hbyte hrn hrd => ?_⟩
  · exact exec_transferRow_addressFault hrow he rd (modeTwo_rmIsPc up s hoff rn)
  · rintro hoff hw rfl
    exact exec_transferRow_addressFault hrow he rd (modeTwo_writebackToPc up s hoff hw)
  · rw [exec_loadRow_loadOp hrow, modeTwo_ok hoff fun _ => hrn]
    exact loadOp_checkFails he (transferCheck_base hw heq)
  · rw [exec_loadRow_loadOp hrow, modeTwo_ok hoff hrn, row.rdPc_byte hbyte]
    exact loadOp_checkFails he (transferCheck_pc (fun _ hw => hrd ▸ hrn hw) hrd)
  · rw [exec_storeRow hrow, modeTwo_ok hoff hrn, row.rdPc_byte hbyte]
    exact storeOp_checkFails he (transferCheck_pc (fun h => by cases h) hrd)

/-! ## Halfword and signed transfers that complete -/

/-- Settles O28: each row is a load of its own extended value. -/
theorem halfwordLoadResults : Obligations.HalfwordLoadResults := by
  intro row hrow cond idx up rn rd off s he hidx hoff hbase hrd a hodd hbus
  rw [exec_halfLoadRow hrow, modeThree_ok up s hidx hoff fun hw => (hbase hw).1]
  exact loadOp_results he hbase hrd hodd hbus

theorem State.readHalf_congr_mem {s t : State} (h : t.mem = s.mem) (a : Word) : t.readHalf a = s.readHalf a := by
  rw [State.readHalf, State.readByte_congr_mem h, State.readByte_congr_mem h, State.readHalf]

theorem State.readByte_writeHalf_other {s : State} {a b : Word} (v : Half) (h : s.mem.wf = true) (hb : b ∉ halfBytes a) :
    (s.writeHalf a v).readByte b = s.readByte b := by
  simp only [halfBytes, bytesFrom, List.mem_cons, List.not_mem_nil, or_false, not_or] at hb
  obtain ⟨h0, h1⟩ := hb
  rw [State.readByte_writeHalf _ _ _ _ h, if_neg h1, if_neg h0]

theorem writeHalf_keeps {s : State} (h : s.mem.wf = true) (a : Word) (v : Half) : Keeps s (s.writeHalf a v) [] (halfBytes a) :=
  ⟨⟨fun _ _ => rfl, fun _ hb => State.readByte_writeHalf_other v h hb, ⟨rfl, rfl, rfl, rfl⟩⟩, rfl⟩

/-- Settles O29: STRH is a store of the low halfword, which reads back as written. -/
theorem halfwordStoreResults : Obligations.HalfwordStoreResults := by
  intro cond idx up rn rd off s he hidx hoff hrn hrd hwf a hodd hbus
  rw [exec_strh, modeThree_ok up s hidx hoff hrn]
  obtain ⟨t, hnext, hmem, hrest⟩ := storeOp_results (b := s.reg rn) (o := off.value s) (rdPc := some .strhOfPc) (rd := rd) (half := true)
    (write := fun t a => t.writeHalf a (fieldAt (s.reg rd) 0 16)) he hrn (fun _ => hrd) (fun _ => hodd) hbus (writeHalf_keeps hwf a _)
  exact ⟨t, hnext, (State.readHalf_congr_mem hmem a).trans (s.readHalf_writeHalf a _ hwf), hrest⟩

/-! ## Swaps -/

section
variable {bytes : Word → List Word} {value : State → Word → Word} {write : State → Word → Word → State} {cond : Cond}
  {rn rd rm : Reg} {s : State} (he : Executes cond s)
include he

theorem swapOp_pcOperand (h : rn = 15 ∨ rd = 15 ∨ rm = 15) :
    swapOp bytes value write cond rn rd rm s = .fault (.unpredictable .swpPcOperand) := by
  rw [swapOp, armInstr_of_executes he, if_pos h]

theorem swapOp_baseOverlap (hpc : ¬ (rn = 15 ∨ rd = 15 ∨ rm = 15)) (h : rn = rd ∨ rn = rm) :
    swapOp bytes value write cond rn rd rm s = .fault (.unpredictable .swpBaseOverlap) := by
  rw [swapOp, armInstr_of_executes he, if_neg hpc, if_pos h]

/-- A swap completes: the old value in Rd, the memory its write of Rm leaves, the PC advance, nothing else (R241). -/
theorem swapOp_results (hpc : ¬ (rn = 15 ∨ rd = 15 ∨ rm = 15)) (hover : ¬ (rn = rd ∨ rn = rm))
    (hread : BusOk s .read (bytes (s.reg rn))) (hwrite : BusOk s .write (bytes (s.reg rn)))
    (hkeeps : Keeps s (write s (s.reg rn) (s.reg rm)) [] (bytes (s.reg rn))) :
    ∃ t, swapOp bytes value write cond rn rd rm s = .next t
      ∧ t.reg rd = value s (s.reg rn)
      ∧ t.mem = (write s (s.reg rn) (s.reg rm)).mem
      ∧ t.pc = s.pc + 4
      ∧ Keeps s t [pcSlot, mapReg s.mode rd] (bytes (s.reg rn)) := by
  have hrd : rd ≠ 15 := fun h => hpc (.inr (.inl h))
  have hframe := hkeeps.mono (List.nil_subset [pcSlot, mapReg s.mode rd])
  refine ⟨((write s (s.reg rn) (s.reg rm)).setReg rd (value s (s.reg rn))).advance, ?_, ?_, rfl, ?_, ?_⟩
  · rw [swapOp, armInstr_of_executes he, if_neg hpc, if_neg hover]
    exact (busCheck_ok hread _).trans (busCheck_ok hwrite _)
  · rw [State.reg_advance _ _ hrd, State.reg_setReg_same _ _ _ hrd]
  · rw [State.pc_advance, State.pc_setReg _ _ _ hrd, hkeeps.pc]
  · exact (hframe.setReg (List.mem_cons_of_mem _ List.mem_cons_self) _).advance List.mem_cons_self

end

/-- Settles O30: the word and the byte read back as written. -/
theorem swapResults : Obligations.SwapResults := by
  intro cond rn rd rm s he hrn hrd hrm hnd hnm hwf a
  have hpc : ¬ (rn = 15 ∨ rd = 15 ∨ rm = 15) := not_or.mpr ⟨hrn, not_or.mpr ⟨hrd, hrm⟩⟩
  have hover : ¬ (rn = rd ∨ rn = rm) := not_or.mpr ⟨hnd, hnm⟩
  rw [exec_swp, exec_swpb]
  constructor
  · intro hread hwrite
    obtain ⟨t, hnext, hreg, hmem, hrest⟩ := swapOp_results (value := fun t a => t.loadRotated a)
      (write := fun t a v => t.writeWord (align4 a) v) he hpc hover hread hwrite (writeWord_keeps hwf a _)
    exact ⟨t, hnext, hreg.trans (s.loadRotated_eq a), (State.readWord_congr_mem hmem _).trans (s.readWord_writeWord _ _ hwf), hrest⟩
  · intro hread hwrite
    obtain ⟨t, hnext, hreg, hmem, hrest⟩ := swapOp_results (value := fun t a => (t.readByte a).setWidth 32)
      (write := fun t a v => t.writeByte a (fieldAt v 0 8)) he hpc hover hread hwrite (writeByte_keeps hwf a _)
    refine ⟨t, hnext, hreg, ?_, hrest⟩
    rw [State.readByte_congr_mem hmem, s.readByte_writeByte a a _ hwf, if_pos rfl]

/-- Settles O33: both swaps check r15 among their operands, then the base. -/
theorem swapStops : Obligations.SwapStops := by
  intro i hi cond rn rd rm s he
  simp only [List.mem_cons, List.not_mem_nil, or_false] at hi
  obtain rfl | rfl := hi
  · rw [exec_swp]
    exact ⟨swapOp_pcOperand he, swapOp_baseOverlap he⟩
  · rw [exec_swpb]
    exact ⟨swapOp_pcOperand he, swapOp_baseOverlap he⟩

end Sys2Proof.Machine
end

section
/-! PROOFS of the family 43_block_transfer: the range of a list (R280, R281, R283), LDM without r15 (R286), STM (R287, R291), the
exception return of LDM (R290, R372), and the checks of every block transfer (R284, R286, R287, R292, R293). -/

namespace Sys2Proof.Machine

/-! ## The range of a list -/

theorem allRegs_eq_finRange : allRegs = List.finRange 16 := by decide

/-- The registers of a list are counted as its bits (R14, R280). -/
theorem popcount_eq (list : BitVec 16) : popcount list = (List.range 16).countP (fun i => list.getLsbD i) := by
  rw [popcount, regsOf, ← List.countP_eq_length_filter, show List.range 16 = allRegs.map Fin.val from rfl, List.countP_map]
  rfl

/-- Below the highest register of a list are all the others. -/
theorem popcount_highest {list : BitVec 16} {r : Reg} (hr : r ∈ regsOf list) (hmax : ∀ q ∈ regsOf list, q ≤ r) :
    popcount list = lowerCount list r + 1 := by
  have hself : (regsOf list).countP (fun q => ¬ decide (q < r) = true) = (regsOf list).count r :=
    List.countP_congr fun q hq => by simpa using ⟨fun h => Fin.le_antisymm (hmax q hq) h, fun h => Fin.le_of_eq h.symm⟩
  rw [popcount, List.length_eq_countP_add_countP (fun q => decide (q < r)), hself, (regsOf_nodup list).count, if_pos hr,
    lowerCount_eq]

/-- The end address is that of the last of `n + 1` words from the start address (R280, R283). -/
theorem blockEnd_eq {list : BitVec 16} {n : Nat} (h : popcount list = n + 1) (form : BlockForm) (b : Word) :
    blockEnd form b list = blockStart form b list + BitVec.ofNat 32 (4 * n) := by
  have hspan : span list = BitVec.ofNat 32 (4 * n) + 4 := by rw [span, h, Nat.mul_add, BitVec.ofNat_add]; rfl
  cases form <;> simp only [blockEnd, blockStart, hspan] <;> bv_omega

/-- Settles O35: the table form by form, and the words of the list in its order. -/
theorem blockRange : Obligations.BlockRange := by
  intro form b list
  have hspan : span list = BitVec.ofNat 32 (4 * (List.range 16).countP (fun i => list.getLsbD i)) := by rw [span, popcount_eq]
  refine ⟨?_, transfers_eq form b list, ?_, congrArg (List.filter _) allRegs_eq_finRange, fun _ => mem_regsOf, fun r hmax hr => ?_⟩
  · rw [← hspan]
    cases form <;> rfl
  · have hbytes (r : Reg) : wordBytes (wordAddress form b list r) = bytesFrom (wordAddress form b list r) 4 := by
      rw [wordBytes, align4_of_mem (aligned_wordAddress form b list r) List.mem_cons_self]
    rw [blockBytes, transferBytes, transfers_eq, List.flatMap_map]
    simp only [hbytes]
  · rw [blockEnd_eq (popcount_highest (mem_regsOf.mpr hr) fun q hq => hmax q (mem_regsOf.mp hq)), wordAddress]

/-! ## LDM without r15 -/

theorem pcWord_transfers_none {list : BitVec 16} (h : list.getLsbD 15 = false) (src : State) (form : BlockForm) (b : Word) :
    pcWord src (transfers form b list) = none := by
  have hfind : (regsOf list).find? (· == 15) = none := by
    refine List.find?_eq_none.mpr fun r hr h15 => ?_
    rw [beq_iff_eq.mp h15, mem_regsOf] at hr
    cases h.symm.trans hr
  rw [pcWord, transfers_eq, List.find?_map]
  simp only [Function.comp_def, hfind, Option.map_none]

/-- Up to its ending an LDM only updates registers r0..r14 (R286). -/
theorem ldmState_upd (i : Instr) (form : BlockForm) (wb : Bool) {rn : Reg} (hrn : rn ≠ 15) (list : BitVec 16) (s : State) :
    Upd i s (ldmState form wb rn list s) := .loads s _ (.blockWriteback wb _ .start hrn)

/-- Settles O36: an LDM without r15 advances after its loads and its writeback. -/
theorem ldmResults : Obligations.LdmResults := by
  intro row hrow cond wb rn list s he hl hrn h15 hwb hbus
  refine ⟨(ldmState row.1 wb rn list s).advance, ?_, fun r hr => ?_, ?_, ?_,
    (ldmState_keeps row.1 wb list s).advance List.mem_cons_self, ldmState_mem row.1 wb list s⟩
  · rw [exec_ldmRow hrow, ldmOp_completes he hl hrn hwb hbus, pcWord_transfers_none h15]
  · have hr15 : r ≠ 15 := by
      rintro rfl
      cases h15.symm.trans hr
    rw [State.reg_advance _ _ hr15, ldmState_reg _ _ _ _ hr hr15]
  · rintro rfl
    rw [State.reg_advance _ _ hrn, ldmState_base _ hrn _ _ (hwb rfl)]
  · rw [State.pc_advance, (ldmState_upd (row.2 cond wb rn list) row.1 wb hrn list s).kept.pc]

/-! ## STM -/

theorem stmOp_completes {form : BlockForm} {cond : Cond} {wb : Bool} {rn : Reg} {list : BitVec 16} {s : State}
    (he : Executes cond s) (hl : list ≠ 0) (hrn : rn ≠ 15)
    (hlow : ¬ (wb = true ∧ list.getLsbD rn.val = true ∧ ∃ q : Reg, q < rn ∧ list.getLsbD q.val = true))
    (hbus : BusOk s .write (blockBytes form (s.reg rn) list)) :
    stmOp form cond wb rn list s =
      .next (blockWriteback wb rn (blockWb form (s.reg rn) list)
        (storeRegs s.regLate (transfers form (s.reg rn) list) s)).advance := by
  rw [← holdsLower_iff] at hlow
  rw [stmOp, armInstr_of_executes he, blockCheck_ok hl hrn, if_neg hlow]
  exact busCheck_ok hbus _

/-- Settles O38: the stores read the registers before the writeback, which leaves memory as it is. -/
theorem stmResults : Obligations.StmResults := by
  intro row hrow cond wb rn list s he hl hrn hlow hwf hbus
  have hkeeps := storeRegs_keeps s.regLate (transfers row.1 (s.reg rn) list) hwf (pcSlot :: baseSlot s.mode wb rn)
  refine ⟨_, (exec_stmRow hrow cond wb rn list s).trans (stmOp_completes he hl hrn hlow hbus), fun r hr => ?_, ?_, ?_,
    (hkeeps.writeback (List.subset_cons_self _ _) _).advance List.mem_cons_self⟩
  · rw [State.readWord_congr_mem ((State.advance_mem _).trans (blockWriteback_mem wb rn _ _)), transfers_stored _ _ _ hwf hr,
      State.regLate_eq]
  · rintro rfl
    rw [State.reg_advance _ _ hrn, reg_blockWriteback hrn]
  · rw [State.pc_advance, pc_blockWriteback fun _ => hrn]
    exact congrArg (· + 4) (slot_storeRegs _ _ s pcSlot)

/-! ## The exception return -/

/-- A return's target is aligned in the state that its T bit restores: bit 0 is clear, and bit 1 in ARM state (R42). -/
theorem pcAligned_iff (t : Bool) (v : Word) : pcAligned t v = true ↔ v.getLsbD 0 = false ∧ (t = false → v.getLsbD 1 = false) := by
  cases t <;> simp [pcAligned]

theorem exceptionReturn_invalidMode {saved : Word} {s : State} (hc : s.curSpsr = some saved)
    (hm : Mode.ofBits (fieldAt saved 0 5) = none) (v : Word) : exceptionReturn v s = .fault (.unpredictable .invalidMode) := by
  simp only [exceptionReturn, restoreCpsr, hc, hm]

/-- A return writes the CPSR and the PC beyond what was written before it (R372). -/
theorem Frame.ofReturn {s x : State} {ks : List Slot} {ms : List Word} (h : Keeps s x (pcSlot :: ks) ms) (m : Mode) (saved v : Word) :
    Frame s ((x.loadCpsr m saved).setPc v) (pcSlot :: cpsrSlot :: ks) ms := by
  obtain ⟨⟨hslots, hbytes, hparams⟩, -⟩ := h
  refine ⟨fun k hk => ?_, hbytes, hparams.trans ⟨rfl, rfl, rfl, rfl⟩⟩
  simp only [List.mem_cons, not_or] at hk
  obtain ⟨hpc, hcpsr, hks⟩ := hk
  rw [State.slot_setPc, if_neg hpc, State.slot_loadCpsr, if_neg hcpsr, hslots k (by simp [hpc, hks])]

/-- A return leaves the registers of the bank it was made in (R372). -/
theorem slot_mapReg_return {x : State} {r : Reg} (hr : r ≠ 15) (m : Mode) (saved v : Word) :
    ((x.loadCpsr m saved).setPc v).slot (mapReg x.mode r) = x.reg r := by
  rw [State.slot_setPc, if_neg (mapReg_ne_pc _ r hr), State.slot_loadCpsr, if_neg (mapReg_ne_cpsr _ r), State.reg_eq_slot x r hr]

section
variable {form : BlockForm} {cond : Cond} {wb : Bool} {rn : Reg} {list : BitVec 16} {s : State} (he : Executes cond s)
  (hl : list ≠ 0) (hrn : rn ≠ 15) (hwb : wb = true → list.getLsbD rn.val = false)
include he hl hrn hwb

theorem execLdmReturn_noSpsr (hs : NoSpsr s) : execLdmReturn cond form wb rn list s = .fault (.invalidModeAccess .read) := by
  rw [execLdmReturn, armInstr_of_executes he, blockCheck_ok hl hrn, if_neg (fun h => by cases (hwb h.1).symm.trans h.2),
    if_pos (curSpsr_none.mpr hs)]

/-- With r15 in its list the exception-return form ends as any exception return does, after its loads (R290). -/
theorem execLdmReturn_completes {saved : Word} (hc : s.curSpsr = some saved) (h15 : list.getLsbD 15 = true)
    (hbus : BusOk s .read (blockBytes form (s.reg rn) list)) :
    execLdmReturn cond form wb rn list s =
      exceptionReturn (s.readWord (wordAddress form (s.reg rn) list 15)) (ldmState form wb rn list s) := by
  rw [execLdmReturn, armInstr_of_executes he, blockCheck_ok hl hrn, if_neg (fun h => by cases (hwb h.1).symm.trans h.2),
    if_neg (hc ▸ Option.some_ne_none saved)]
  refine (busCheck_ok hbus _).trans ?_
  simp only [pcWord_transfers h15]
  rfl

end

/-- Settles O39: the stop without an SPSR, then the exception return after the loads and the writeback. -/
theorem ldmExceptionReturn : Obligations.LdmExceptionReturn := by
  intro cond form wb rn list s he hrn h15 hwb i v
  have hl : list ≠ 0 := by rintro rfl; cases h15
  refine ⟨execLdmReturn_noSpsr he hl hrn hwb, fun saved hc hbus => ?_⟩
  have hexec : exec i s = exceptionReturn v (ldmState form wb rn list s) := execLdmReturn_completes he hl hrn hwb hc h15 hbus
  have hcx : (ldmState form wb rn list s).curSpsr = some saved := (ldmState_upd i form wb hrn list s).curSpsr.trans hc
  have hbank {r : Reg} (hr : r ≠ 15) (m : Mode) :
      (((ldmState form wb rn list s).loadCpsr m saved).setPc v).slot (mapReg s.mode r) = (ldmState form wb rn list s).reg r := by
    rw [← ldmState_mode form wb list s, slot_mapReg_return hr]
  refine ⟨fun hm => hexec.trans (exceptionReturn_invalidMode hcx hm v), fun m hm => ?_⟩
  rw [hexec, exceptionReturn_restores hcx hm, ← pcAligned_iff, ← t_loadCpsr (ldmState form wb rn list s) m saved]
  refine ⟨fun hal => ⟨_, pcWrite_aligned hal, ?_, rfl, State.pc_setPc _ _, fun r hr hbit => ?_, ?_,
    .ofReturn (ldmState_keeps form wb list s) m saved v, ldmState_mem form wb list s⟩,
    fun hal => pcWrite_misaligned (Bool.eq_false_iff.mpr hal)⟩
  · rw [State.cpsr_setPc, State.cpsr_loadCpsr]
  · rw [hbank hr, ldmState_reg _ _ _ _ hbit hr]
  · rintro rfl
    rw [hbank hrn, ldmState_base _ hrn _ _ (hwb rfl)]

/-! ## The checks of a block transfer -/

theorem blockCheck_empty (rn : Reg) (k : Result) : blockCheck rn 0 k = .fault (.unpredictable .emptyList) := rfl

theorem blockCheck_pcAsBase {list : BitVec 16} (hl : list ≠ 0) (k : Result) :
    blockCheck 15 list k = .fault (.unpredictable .pcAsBase) := by
  obtain ⟨r, hr⟩ := exists_mem_regsOf hl
  rw [blockCheck, popcount, if_neg (Nat.ne_of_gt (List.length_pos_of_mem hr)), if_pos rfl]

section
variable {form : BlockForm} {cond : Cond} {wb : Bool} {rn : Reg} {list : BitVec 16} {s : State}

/-- Every block transfer begins with the checks of R284. -/
theorem exec_blockCheck {i : Instr}
    (hi : i ∈ ldmRows.map (fun row => row.2 cond wb rn list) ∨ i ∈ stmRows.map (fun row => row.2 cond wb rn list)
      ∨ i = .ldmReturn cond form wb rn list ∨ i = .ldmUser cond form wb rn list ∨ i = .stmUser cond form wb rn list) (s : State) :
    ∃ k, exec i s = armInstr cond s (blockCheck rn list k) := by
  obtain hi | hi | rfl | rfl | rfl := hi
  · obtain ⟨row, hrow, rfl⟩ := List.mem_map.mp hi
    exact ⟨_, exec_ldmRow hrow cond wb rn list s⟩
  · obtain ⟨row, hrow, rfl⟩ := List.mem_map.mp hi
    exact ⟨_, exec_stmRow hrow cond wb rn list s⟩
  · exact ⟨_, rfl⟩
  · exact ⟨_, rfl⟩
  · exact ⟨_, rfl⟩

variable (he : Executes cond s) (hl : list ≠ 0) (hrn : rn ≠ 15)
include he hl hrn

theorem ldmOp_baseInList (hbase : list.getLsbD rn.val = true) :
    ldmOp form cond true rn list s = .fault (.unpredictable .ldmWritebackBaseInList) := by
  rw [ldmOp, armInstr_of_executes he, blockCheck_ok hl hrn, if_pos ⟨rfl, hbase⟩]

theorem execLdmReturn_baseInList (hbase : list.getLsbD rn.val = true) :
    execLdmReturn cond form true rn list s = .fault (.unpredictable .ldmWritebackBaseInList) := by
  rw [execLdmReturn, armInstr_of_executes he, blockCheck_ok hl hrn, if_pos ⟨rfl, hbase⟩]

theorem stmOp_baseNotLowest (hbase : list.getLsbD rn.val = true) (hlow : ∃ q : Reg, q < rn ∧ list.getLsbD q.val = true) :
    stmOp form cond true rn list s = .fault (.unpredictable .stmWritebackBaseNotLowest) := by
  rw [stmOp, armInstr_of_executes he, blockCheck_ok hl hrn, if_pos ⟨rfl, hbase, holdsLower_iff.mpr hlow⟩]

theorem execLdmUser_writeback : execLdmUser cond form true rn list s = .fault (.unpredictable .userLdmWriteback) := by
  rw [execLdmUser, armInstr_of_executes he, blockCheck_ok hl hrn, if_pos rfl]

theorem execStmUser_writeback : execStmUser cond form true rn list s = .fault (.unpredictable .userStmWriteback) := by
  rw [execStmUser, armInstr_of_executes he, blockCheck_ok hl hrn, if_pos rfl]

theorem execLdmUser_noBank (hs : NoSpsr s) :
    execLdmUser cond form false rn list s = .fault (.unpredictable .userLdmInUserOrSystem) := by
  rw [execLdmUser, armInstr_of_executes he, blockCheck_ok hl hrn, if_neg Bool.false_ne_true, if_pos hs]

theorem execStmUser_noBank (hs : NoSpsr s) :
    execStmUser cond form false rn list s = .fault (.unpredictable .userStmInUserOrSystem) := by
  rw [execStmUser, armInstr_of_executes he, blockCheck_ok hl hrn, if_neg Bool.false_ne_true, if_pos hs]

end

/-- Settles O41: the checks of R284 that all share, then each instruction's own. -/
theorem blockStops : Obligations.BlockStops := by
  intro cond form wb rn list s he
  refine ⟨fun i hi => ?_, fun hl hrn => ⟨fun i hi hw hbase => ?_, fun i hi hw hbase hlow => ?_, fun hw hs => ?_, fun hw => ?_⟩⟩
  · obtain ⟨k, hexec⟩ := exec_blockCheck hi s
    rw [hexec, armInstr_of_executes he]
    constructor
    · rintro rfl
      exact blockCheck_empty rn k
    · rintro hl rfl
      exact blockCheck_pcAsBase hl k
  · subst hw
    obtain hi | rfl := hi
    · obtain ⟨row, hrow, rfl⟩ := List.mem_map.mp hi
      rw [exec_ldmRow hrow, ldmOp_baseInList he hl hrn hbase]
    · exact execLdmReturn_baseInList he hl hrn hbase
  · subst hw
    obtain ⟨row, hrow, rfl⟩ := List.mem_map.mp hi
    rw [exec_stmRow hrow, stmOp_baseNotLowest he hl hrn hbase hlow]
  · subst hw
    exact ⟨execLdmUser_noBank he hl hrn hs, execStmUser_noBank he hl hrn hs⟩
  · subst hw
    exact ⟨execLdmUser_writeback he hl hrn, execStmUser_writeback he hl hrn⟩

end Sys2Proof.Machine
end

section
/-! PROOFS of the family 44_branch: BX (R42, R312). -/

namespace Sys2Proof.Machine

/-- A target whose bits 1:0 are 10 asks for ARM state at an address that is not word-aligned (R312). -/
theorem fieldAt_eq_two_iff (v : Word) : fieldAt v 0 2 = 2 ↔ v.getLsbD 0 = false ∧ v.getLsbD 1 = true := by
  have hbits : ∀ b : BitVec 2, b = 2 ↔ b.getLsbD 0 = false ∧ b.getLsbD 1 = true := by decide
  rw [hbits, getLsbD_fieldAt, getLsbD_fieldAt]
  simp

/-- The target of BX is aligned for the state its bit 0 selects, unless its bits 1:0 are 10 (R42, R312). -/
theorem pcAligned_exchange_iff (v : Word) : pcAligned (v.getLsbD 0) (v &&& 0xFFFFFFFE) = true ↔ fieldAt v 0 2 ≠ 2 := by
  have h0 : (v &&& 0xFFFFFFFE).getLsbD 0 = false := by simp
  have h1 : (v &&& 0xFFFFFFFE).getLsbD 1 = v.getLsbD 1 := by simp
  rw [pcAligned_iff, h0, h1, Ne, fieldAt_eq_two_iff]
  simp

theorem Keeps.setT {s x : State} {ks : List Slot} {ms : List Word} (h : Keeps s x ks ms) (hk : cpsrSlot ∈ ks) (t : Bool) :
    Keeps s (x.setT t) ks ms := h.setSlot hk _

/-- BX is a PC write made in the state that bit 0 of Rm selects (R312). -/
theorem exec_bx {cond : Cond} {s : State} (he : Executes cond s) (rm : Reg) :
    exec (.bx cond rm) s = pcWrite (s.reg rm &&& 0xFFFFFFFE) (s.setT ((s.reg rm).getLsbD 0)) := armInstr_of_executes he _

/-- Settles O43: BX writes T, then the PC if the target is aligned under the new T. -/
theorem branchExchangeResults : Obligations.BranchExchangeResults := by
  intro cond rm s he
  have hal : pcAligned (s.setT ((s.reg rm).getLsbD 0)).t (s.reg rm &&& 0xFFFFFFFE) = true ↔ fieldAt (s.reg rm) 0 2 ≠ 2 := by
    rw [State.t_setT, pcAligned_exchange_iff]
  rw [exec_bx he]
  refine ⟨fun h => ⟨_, pcWrite_aligned (hal.mpr h), State.pc_setPc _ _, ?_, fun i _ h5 => ?_,
    ((Keeps.refl s _ _).setT (by simp) _).setPc (by simp) _, rfl⟩,
    fun h => pcWrite_misaligned (Bool.eq_false_iff.mpr fun ha => hal.mp ha h)⟩
  · rw [State.t_setPc, State.t_setT]
  · rw [State.cpsr_setPc, State.cpsr_setT, getLsbD_withBit _ _ _ _ (by omega), if_neg h5]

end Sys2Proof.Machine
end

section
/-! PROOFS of the family 45_multiply: the multiplies that complete (R330 to R337) and their operand checks. -/

namespace Sys2Proof.Machine

/-! ## The products -/

theorem mul32_eq (m x : Word) : mul32 m x = m * x := by simp [mul32, BitVec.ofNat_mul]

theorem mla32_eq (m x n : Word) : mla32 m x n = m * x + n := by simp [mla32, BitVec.ofNat_add, BitVec.ofNat_mul]

theorem umul64_eq (m x : Word) : umul64 m x = m.zeroExtend 64 * x.zeroExtend 64 := by simp [umul64, BitVec.ofNat_mul]

theorem umla64_eq (m x hi lo : Word) :
    umla64 m x hi lo = m.zeroExtend 64 * x.zeroExtend 64 + (hi ++ lo : BitVec (32 + 32)) :=
  (BitVec.ofNat_add _ _).trans (congr (congrArg (· + ·) (umul64_eq m x)) ((BitVec.ofNat_toNat _ _).trans (BitVec.setWidth_eq _)))

/-- A sign-extended word is the 64-bit word of its signed value. -/
theorem smul64_eq (m x : Word) : smul64 m x = m.signExtend 64 * x.signExtend 64 := BitVec.ofInt_mul _ _

theorem smla64_eq (m x hi lo : Word) :
    smla64 m x hi lo = m.signExtend 64 * x.signExtend 64 + (hi ++ lo : BitVec (32 + 32)) :=
  (BitVec.ofInt_add _ _).trans (congr (congrArg (· + ·) (smul64_eq m x)) BitVec.ofInt_toInt)

/-! ## The flags -/

/-- The flags after a CPSR write of new N, Z, C and V, with every other bit as before (R50). -/
theorem flags_of_withNzcv {s t : State} {n z c v : Bool} (h : t.cpsr = withNzcv s.cpsr n z c v) :
    FlagsAre t n z c v ∧ SamePsrRest s t := by
  refine ⟨⟨?_, ?_, ?_, ?_⟩, fieldAt_ext fun i hi => ?_⟩
  · rw [State.n, h, getLsbD_withNzcv, if_pos rfl]
  · rw [State.z, h, getLsbD_withNzcv, if_neg (by decide), if_pos rfl]
  · rw [State.c, h, getLsbD_withNzcv, if_neg (by decide), if_neg (by decide), if_pos rfl]
  · rw [State.v, h, getLsbD_withNzcv, if_neg (by decide), if_neg (by decide), if_neg (by decide), if_pos rfl]
  · rw [h, getLsbD_withNzcv, if_neg (by omega), if_neg (by omega), if_neg (by omega), if_neg (by omega)]

/-- MUL and MLA keep V, and C under Unchanged (R330 to R332). -/
theorem cpsr_mulFlags (n z : Bool) (s : State) :
    ∃ c, (mulFlags n z s).cpsr = withNzcv s.cpsr n z c s.v ∧ (s.mulsCPolicy = .unchanged → c = s.c) := by
  unfold mulFlags
  cases h : s.mulsCPolicy with
  | unchanged => exact ⟨_, s.cpsr_setNzcv _ _ _ _, fun _ => rfl⟩
  | draw => exact ⟨_, s.cpsr_setNzcv _ _ _ _, nofun⟩

/-- The long multiplies keep C and V under Unchanged (R331, R333). -/
theorem cpsr_longMulFlags (n z : Bool) (s : State) :
    ∃ c v, (longMulFlags n z s).cpsr = withNzcv s.cpsr n z c v ∧ (s.mulsCPolicy = .unchanged → c = s.c ∧ v = s.v) := by
  unfold longMulFlags
  cases h : s.mulsCPolicy with
  | unchanged => exact ⟨_, _, s.cpsr_setNzcv _ _ _ _, fun _ => ⟨rfl, rfl⟩⟩
  | draw => exact ⟨_, _, s.cpsr_setNzcv _ _ _ _, nofun⟩

/-- The count of free values is no part of a frame. -/
theorem Keeps.setDraws {s x : State} {ks : List Slot} {ms : List Word} (h : Keeps s x ks ms) (d : Nat) :
    Keeps s { x with draws := d } ks ms :=
  ⟨⟨h.1.slots, h.1.bytes, h.1.params.trans ⟨rfl, rfl, rfl, rfl⟩⟩, h.2⟩

theorem setNzcv_keeps (s : State) (n z c v : Bool) : Keeps s (s.setNzcv n z c v) [cpsrSlot] [] :=
  (Keeps.refl s _ _).setSlot List.mem_cons_self _

theorem mulFlags_keeps (n z : Bool) (s : State) : Keeps s (mulFlags n z s) [cpsrSlot] [] := by
  unfold mulFlags
  split
  · exact setNzcv_keeps s _ _ _ _
  · exact (setNzcv_keeps s _ _ _ _).setDraws _

theorem longMulFlags_keeps (n z : Bool) (s : State) : Keeps s (longMulFlags n z s) [cpsrSlot] [] := by
  unfold longMulFlags
  split
  · exact setNzcv_keeps s _ _ _ _
  · exact (setNzcv_keeps s _ _ _ _).setDraws _

/-- The flags are written when S = 1 only. -/
theorem Keeps.whenS {s x : State} (h : Keeps s x [cpsrSlot] []) (sf : Bool) :
    Keeps s (if sf then x else s) (if sf then [cpsrSlot] else []) [] := by
  cases sf with
  | false => exact Keeps.refl s _ _
  | true => exact h

/-- Where S = 1 may write the CPSR and no slot else changes, the PC is as before. -/
theorem Keeps.pc_whenS {s x : State} {sf : Bool} {ms : List Word} (h : Keeps s x (if sf then [cpsrSlot] else []) ms) :
    x.pc = s.pc := h.1.slots pcSlot (by cases sf <;> simp)

/-! ## MUL and MLA -/

section
variable {cond : Cond} {s : State} (he : Executes cond s) (sf : Bool) {rd rn rs rm : Reg}
include he

theorem exec_mul (hpc : ¬ (rd = 15 ∨ rm = 15 ∨ rs = 15)) (hrm : rd ≠ rm) :
    exec (.mul cond sf rd rn rs rm) s = mulCommit sf rd (s.reg rm * s.reg rs) s := by
  rw [← mul32_eq]
  exact (armInstr_of_executes he _).trans ((if_neg hpc).trans (if_neg hrm))

theorem exec_mul_pcOperand (hpc : rd = 15 ∨ rm = 15 ∨ rs = 15) :
    exec (.mul cond sf rd rn rs rm) s = .fault (.unpredictable .mulPcOperand) :=
  (armInstr_of_executes he _).trans (if_pos hpc)

theorem exec_mul_rdIsRm (hpc : ¬ (rd = 15 ∨ rm = 15 ∨ rs = 15)) (hrm : rd = rm) :
    exec (.mul cond sf rd rn rs rm) s = .fault (.unpredictable .mulRdIsRm) :=
  (armInstr_of_executes he _).trans ((if_neg hpc).trans (if_pos hrm))

theorem exec_mla (hpc : ¬ (rd = 15 ∨ rm = 15 ∨ rs = 15 ∨ rn = 15)) (hrm : rd ≠ rm) :
    exec (.mla cond sf rd rn rs rm) s = mulCommit sf rd (s.reg rm * s.reg rs + s.reg rn) s := by
  rw [← mla32_eq]
  exact (armInstr_of_executes he _).trans ((if_neg hpc).trans (if_neg hrm))

theorem exec_mla_pcOperand (hpc : rd = 15 ∨ rm = 15 ∨ rs = 15 ∨ rn = 15) :
    exec (.mla cond sf rd rn rs rm) s = .fault (.unpredictable .mlaPcOperand) :=
  (armInstr_of_executes he _).trans (if_pos hpc)

theorem exec_mla_rdIsRm (hpc : ¬ (rd = 15 ∨ rm = 15 ∨ rs = 15 ∨ rn = 15)) (hrm : rd = rm) :
    exec (.mla cond sf rd rn rs rm) s = .fault (.unpredictable .mlaRdIsRm) :=
  (armInstr_of_executes he _).trans ((if_neg hpc).trans (if_pos hrm))

end

/-- What the commit of MUL and MLA leaves: the flags if S = 1, then Rd, then the advance (R330 to R332). -/
theorem mulCommit_completes (sf : Bool) {rd : Reg} (hrd : rd ≠ 15) (r : Word) (s : State) :
    ∃ t, mulCommit sf rd r s = .next t ∧ t.reg rd = r ∧ t.pc = s.pc + 4
      ∧ (sf = true → t.n = r.getLsbD 31 ∧ t.z = decide (r = 0) ∧ (s.mulsCPolicy = .unchanged → t.c = s.c) ∧ t.v = s.v
          ∧ SamePsrRest s t)
      ∧ Keeps s t (pcSlot :: mapReg s.mode rd :: if sf then [cpsrSlot] else []) [] ∧ t.mem = s.mem := by
  have hk := (mulFlags_keeps (r.getLsbD 31) (r == 0) s).whenS sf
  refine ⟨_, rfl, ?_, ?_, ?_, ?_, ?_⟩
  · rw [State.reg_advance _ _ hrd, State.reg_setReg_same _ _ _ hrd]
  · rw [State.pc_advance, State.pc_setReg _ _ _ hrd, hk.pc_whenS]
  · rintro rfl
    obtain ⟨c, hcpsr, hc⟩ := cpsr_mulFlags (r.getLsbD 31) (r == 0) s
    obtain ⟨⟨hn, hz, hc', hv⟩, hrest⟩ :=
      flags_of_withNzcv (((State.cpsr_advance _).trans (State.cpsr_setReg _ rd r)).trans hcpsr)
    exact ⟨hn, hz, fun h => hc'.trans (hc h), hv, hrest⟩
  · exact ((hk.mono fun _ h => by simp [h]).setReg (by simp) _).advance (by simp)
  · cases sf <;> simp

/-- Settles O21: both instructions commit their product. -/
theorem multiplyResults : Obligations.MultiplyResults := by
  rintro cond sf rd rn rs rm s he hrd hrm hrs hne p (rfl | ⟨hrn, rfl⟩)
  · rw [exec_mul he sf (by simp [hrd, hrm, hrs]) hne]
    exact mulCommit_completes sf hrd _ s
  · rw [exec_mla he sf (by simp [hrd, hrm, hrs, hrn]) hne]
    exact mulCommit_completes sf hrd _ s

/-! ## The long multiplies -/

theorem longMul_congr {f g : Word → Word → Word → Word → BitVec 64} (h : ∀ m x hi lo, f m x hi lo = g m x hi lo) (cond : Cond)
    (sf : Bool) (rdHi rdLo rs rm : Reg) (s : State) : longMul f cond sf rdHi rdLo rs rm s = longMul g cond sf rdHi rdLo rs rm s := by
  simp only [longMul, h]

/-- The four long multiplies run `longMul` with their row's result (R334 to R337). -/
theorem exec_longMultiplyRow {row : ResultLong} (h : row ∈ longMultiplyRows) (cond : Cond) (sf : Bool) (rdHi rdLo rs rm : Reg)
    (s : State) : exec (row.1 cond sf rdHi rdLo rs rm) s = longMul row.2 cond sf rdHi rdLo rs rm s := by
  simp only [longMultiplyRows, List.mem_cons, List.not_mem_nil, or_false] at h
  obtain rfl | rfl | rfl | rfl := h
  · exact longMul_congr (fun m x _ _ => umul64_eq m x) ..
  · exact longMul_congr umla64_eq ..
  · exact longMul_congr (fun m x _ _ => smul64_eq m x) ..
  · exact longMul_congr smla64_eq ..

/-- The state a long multiply that completes leaves, by its result (R333). -/
def longMulState (sf : Bool) (rdHi rdLo : Reg) (r : BitVec 64) (s : State) : State :=
  (((if sf then longMulFlags (r.getLsbD 63) (r == 0) s else s).setReg rdLo (fieldAt r 0 32)).setReg rdHi
    (fieldAt r 32 32)).advance

section
variable {cond : Cond} {s : State} (he : Executes cond s) (f : Word → Word → Word → Word → BitVec 64) (sf : Bool)
  {rdHi rdLo rs rm : Reg}
include he

theorem longMul_completes (hpc : ¬ (rdHi = 15 ∨ rdLo = 15 ∨ rm = 15 ∨ rs = 15)) (hov : ¬ (rdHi = rdLo ∨ rdHi = rm ∨ rdLo = rm)) :
    longMul f cond sf rdHi rdLo rs rm s =
      .next (longMulState sf rdHi rdLo (f (s.reg rm) (s.reg rs) (s.reg rdHi) (s.reg rdLo)) s) := by
  rw [longMul, armInstr_of_executes he, if_neg hpc, if_neg hov, longMulState]

theorem longMul_pcOperand (hpc : rdHi = 15 ∨ rdLo = 15 ∨ rm = 15 ∨ rs = 15) :
    longMul f cond sf rdHi rdLo rs rm s = .fault (.unpredictable .longMulPcOperand) := by
  rw [longMul, armInstr_of_executes he, if_pos hpc]

theorem longMul_overlap (hpc : ¬ (rdHi = 15 ∨ rdLo = 15 ∨ rm = 15 ∨ rs = 15)) (hov : rdHi = rdLo ∨ rdHi = rm ∨ rdLo = rm) :
    longMul f cond sf rdHi rdLo rs rm s = .fault (.unpredictable .longMulOverlap) := by
  rw [longMul, armInstr_of_executes he, if_neg hpc, if_pos hov]

end

section
variable (sf : Bool) {rdHi rdLo : Reg} (r : BitVec 64) (s : State)

theorem longMulState_rdHi (hhi : rdHi ≠ 15) : (longMulState sf rdHi rdLo r s).reg rdHi = fieldAt r 32 32 := by
  rw [longMulState, State.reg_advance _ _ hhi, State.reg_setReg_same _ _ _ hhi]

theorem longMulState_rdLo (hlo : rdLo ≠ 15) (hne : rdHi ≠ rdLo) : (longMulState sf rdHi rdLo r s).reg rdLo = fieldAt r 0 32 := by
  rw [longMulState, State.reg_advance _ _ hlo, State.reg_setReg_other _ _ _ _ hlo hne.symm, State.reg_setReg_same _ _ _ hlo]

theorem longMulState_pc (hhi : rdHi ≠ 15) (hlo : rdLo ≠ 15) : (longMulState sf rdHi rdLo r s).pc = s.pc + 4 := by
  rw [longMulState, State.pc_advance, State.pc_setReg _ _ _ hhi, State.pc_setReg _ _ _ hlo,
    ((longMulFlags_keeps _ _ s).whenS sf).pc_whenS]

theorem longMulState_cpsr (rdHi rdLo : Reg) :
    (longMulState true rdHi rdLo r s).cpsr = (longMulFlags (r.getLsbD 63) (r == 0) s).cpsr := by
  rw [longMulState, State.cpsr_advance, State.cpsr_setReg, State.cpsr_setReg, if_pos rfl]

theorem longMulState_keeps (rdHi rdLo : Reg) :
    Keeps s (longMulState sf rdHi rdLo r s)
      (pcSlot :: mapReg s.mode rdLo :: mapReg s.mode rdHi :: if sf then [cpsrSlot] else []) [] := by
  have hk := (longMulFlags_keeps (r.getLsbD 63) (r == 0) s).whenS sf
  exact (((hk.mono fun _ h => by simp [h]).setReg (by simp) _).setReg (by simp) _).advance (by simp)

theorem longMulState_mem (rdHi rdLo : Reg) : (longMulState sf rdHi rdLo r s).mem = s.mem := by
  cases sf <;> simp [longMulState]

end

/-- Settles O22: the four long multiplies leave `longMulState` of their row's result. -/
theorem longMultiplyResults : Obligations.LongMultiplyResults := by
  intro row hrow cond sf rdHi rdLo rs rm s he hhi hlo hrm hrs hne hhim hlom r
  refine ⟨longMulState sf rdHi rdLo r s, ?_, longMulState_rdLo sf r s hlo hne, longMulState_rdHi sf r s hhi,
    longMulState_pc sf r s hhi hlo, ?_, longMulState_keeps sf r s rdHi rdLo, longMulState_mem sf r s rdHi rdLo⟩
  · rw [exec_longMultiplyRow hrow, longMul_completes he _ _ (by simp [hhi, hlo, hrm, hrs]) (by simp [hne, hhim, hlom])]
  · rintro rfl
    obtain ⟨c, v, hcpsr, hcv⟩ := cpsr_longMulFlags (r.getLsbD 63) (r == 0) s
    obtain ⟨⟨hn, hz, hc, hv⟩, hrest⟩ := flags_of_withNzcv ((longMulState_cpsr r s rdHi rdLo).trans hcpsr)
    exact ⟨hn, hz, fun h => ⟨hc.trans (hcv h).1, hv.trans (hcv h).2⟩, hrest⟩

/-! ## The operand checks -/

/-- Settles O23: in each shape the check of r15 comes before that of the overlap. -/
theorem multiplyStops : Obligations.MultiplyStops := by
  constructor
  · intro cond sf rd rn rs rm s he
    exact ⟨exec_mul_pcOperand he sf, exec_mul_rdIsRm he sf, exec_mla_pcOperand he sf, exec_mla_rdIsRm he sf⟩
  · intro row hrow cond sf rdHi rdLo rs rm s he
    rw [exec_longMultiplyRow hrow]
    exact ⟨longMul_pcOperand he _ sf, longMul_overlap he _ sf⟩

end Sys2Proof.Machine
end

section
/-! PROOFS of the family 46_data_processing: the adder's flags (R352), the data-processing instructions that complete (R351, R356 to
R371), and the exception return with Rd = 15 (R353, R372, R465). -/

namespace Sys2Proof.Machine

/-! ## The adder's flags -/

/-- The complement of a word is `-q - 1` in two's complement. -/
theorem toInt_not_word (q : Word) : (~~~q).toInt = -q.toInt - 1 := by
  have hnat : (~~~q).toNat = 2 ^ 32 - 1 - q.toNat := BitVec.toNat_not
  rw [BitVec.toInt_eq_toNat_cond, BitVec.toInt_eq_toNat_cond, hnat]
  omega

/-- A subtraction carries out exactly when it does not borrow (R352). -/
theorem addWithCarry_not_carry (p q : Word) (cin : Bool) :
    (addWithCarry p (~~~q) cin).carry = decide (q.toNat + (!cin).toNat ≤ p.toNat) := by
  have hnat : (~~~q).toNat = 2 ^ 32 - 1 - q.toNat := BitVec.toNat_not
  simp only [addWithCarry, hnat, decide_eq_decide]
  cases cin <;> simp only [Bool.toNat_true, Bool.toNat_false, Bool.not_true, Bool.not_false] <;> omega

/-- A subtraction overflows exactly when the signed difference is out of range (R352). -/
theorem addWithCarry_not_overflow (p q : Word) (cin : Bool) :
    (addWithCarry p (~~~q) cin).overflow = outOfRange (p.toInt - q.toInt - (!cin).toNat) := by
  have hsum : p.toInt + (~~~q).toInt + cin.toNat = p.toInt - q.toInt - (!cin).toNat := by
    rw [toInt_not_word]
    cases cin <;> simp <;> omega
  rw [← hsum]
  rfl

/-! ## The rows -/

/-- What a row leaves from its operands: its result, C and V (R351). -/
def DataRow.out {μ : Type} (row : DataRow μ) (x : AluIn) : AluOut :=
  { res := row.value x.a x.op2 x.c, c := row.carry x.a x.op2 x.c x.sc, v := row.overflow x.a x.op2 x.c x.v }

/-- The adder's subtraction, with its result, C and V as the rules give them (R352). -/
theorem arith_not (p q : Word) (cin : Bool) :
    arith (addWithCarry p (~~~q) cin) =
      { res := p - q - BitVec.ofNat 32 (!cin).toNat
        c := decide (q.toNat + (!cin).toNat ≤ p.toNat)
        v := outOfRange (p.toInt - q.toInt - (!cin).toNat) } := by
  rw [arith, addWithCarry_not_res, addWithCarry_not_carry, addWithCarry_not_overflow]

/-- With a carry-in of 1 the adder's subtraction is the plain difference (R358). -/
theorem arith_not_true (p q : Word) :
    arith (addWithCarry p (~~~q) true) =
      { res := p - q, c := decide (q.toNat ≤ p.toNat), v := outOfRange (p.toInt - q.toInt) } := by
  simp [arith_not]

theorem arith_add (p q : Word) (cin : Bool) :
    arith (addWithCarry p q cin) =
      { res := p + q + BitVec.ofNat 32 cin.toNat
        c := decide (2 ^ 32 ≤ p.toNat + q.toNat + cin.toNat)
        v := outOfRange (p.toInt + q.toInt + cin.toNat) } := by
  rw [arith, addWithCarry_res]
  rfl

/-- With a carry-in of 0 the adder's sum is the plain one (R360). -/
theorem arith_add_false (p q : Word) :
    arith (addWithCarry p q false) =
      { res := p + q, c := decide (2 ^ 32 ≤ p.toNat + q.toNat), v := outOfRange (p.toInt + q.toInt) } := by
  simp [arith_add]

theorem dataOp_congr {f g : AluIn → AluOut} (h : ∀ x, f x = g x) (cond : Cond) (sf : Bool) (rn rd : Reg) (op : ShifterOperand)
    (s : State) : dataOp f cond sf rn rd op s = dataOp g cond sf rn rd op s := by
  rw [funext h]

theorem testOp_congr {f g : AluIn → AluOut} (h : ∀ x, f x = g x) (cond : Cond) (rn rd : Reg) (op : ShifterOperand) (s : State) :
    testOp f cond rn rd op s = testOp g cond rn rd op s := by
  rw [funext h]

/-- The twelve opcodes with a result leave what their rows say (R351, R356 to R363, R368 to R371). -/
theorem exec_resultRow_out {row : DataRow ResultMaker} (h : row ∈ logicalRows ++ arithmeticRows) (cond : Cond) (sf : Bool) (rn rd : Reg)
    (op : ShifterOperand) (s : State) : exec (row.make cond sf rn rd op) s = dataOp row.out cond sf rn rd op s := by
  simp only [logicalRows, arithmeticRows, List.cons_append, List.nil_append, List.mem_cons, List.not_mem_nil, or_false] at h
  obtain rfl | rfl | rfl | rfl | rfl | rfl | rfl | rfl | rfl | rfl | rfl | rfl := h
  iterate 6 · rfl -- the logical rows
  · exact dataOp_congr (fun x => arith_not_true x.a x.op2) ..
  · exact dataOp_congr (fun x => arith_not_true x.op2 x.a) ..
  · exact dataOp_congr (fun x => arith_add_false x.a x.op2) ..
  · exact dataOp_congr (fun x => arith_add x.a x.op2 x.c) ..
  · exact dataOp_congr (fun x => arith_not x.a x.op2 x.c) ..
  · exact dataOp_congr (fun x => arith_not x.op2 x.a x.c) ..

/-- The four test opcodes leave the flags their rows say (R351, R364 to R367). -/
theorem exec_testRow_out {row : DataRow TestMaker} (h : row ∈ testRows) (cond : Cond) (rn rd : Reg) (op : ShifterOperand) (s : State) :
    exec (row.make cond rn rd op) s = testOp row.out cond rn rd op s := by
  simp only [testRows, List.mem_cons, List.not_mem_nil, or_false] at h
  obtain rfl | rfl | rfl | rfl := h
  iterate 2 · rfl -- TST and TEQ
  · exact testOp_congr (fun x => arith_not_true x.a x.op2) ..
  · exact testOp_congr (fun x => arith_add_false x.a x.op2) ..

/-- A logical row leaves the shifter's carry-out, and V as it was (R351). -/
theorem logicalRow_eq {row : DataRow ResultMaker} (h : row ∈ logicalRows) : ∃ make g, row = .logic make g := by
  simp only [logicalRows, List.mem_cons, List.not_mem_nil, or_false] at h
  obtain h | h | h | h | h | h := h <;> exact ⟨_, _, h⟩

/-! ## Data processing that completes -/

theorem commitFlags_keeps (o : AluOut) (s : State) : Keeps s (commitFlags o s) [cpsrSlot] [] := setNzcv_keeps s _ _ _ _

/-- After a flag commit the flags are those of the result, whatever is written after it beside the CPSR (R351). -/
theorem flags_of_commitFlags {o : AluOut} {s t : State} (h : t.cpsr = (commitFlags o s).cpsr) :
    FlagsAre t (o.res.getLsbD 31) (decide (o.res = 0)) o.c o.v ∧ SamePsrRest s t :=
  flags_of_withNzcv (h.trans (s.cpsr_setNzcv _ _ _ _))

section
variable {cond : Cond} {s : State} (he : Executes cond s) (f : AluIn → AluOut) (rn : Reg) {rd : Reg} {op : ShifterOperand}
  (hop : rsIsPc op = false)
include he hop

/-- What a data-processing instruction to r0..r14 leaves: the flags if S = 1, then Rd, then the advance (R351, R353). -/
theorem dataOp_completes (hrd : rd ≠ 15) (sf : Bool) :
    let o := f (aluIn op rn s)
    ∃ t, dataOp f cond sf rn rd op s = .next t ∧ t.reg rd = o.res ∧ t.pc = s.pc + 4
      ∧ (sf = true → FlagsAre t (o.res.getLsbD 31) (decide (o.res = 0)) o.c o.v ∧ SamePsrRest s t)
      ∧ Keeps s t (pcSlot :: mapReg s.mode rd :: if sf then [cpsrSlot] else []) [] ∧ t.mem = s.mem := by
  intro o
  have hexec : dataOp f cond sf rn rd op s = .next ((if sf then commitFlags o s else s).setReg rd o.res).advance := by
    rw [dataOp, armInstr_of_executes he, hop]
    exact if_neg hrd
  have hk := (commitFlags_keeps o s).whenS sf
  refine ⟨_, hexec, ?_, ?_, ?_, ?_, ?_⟩
  · rw [State.reg_advance _ _ hrd, State.reg_setReg_same _ _ _ hrd]
  · rw [State.pc_advance, State.pc_setReg _ _ _ hrd, hk.pc_whenS]
  · rintro rfl
    exact flags_of_commitFlags ((State.cpsr_advance _).trans (State.cpsr_setReg _ rd o.res))
  · exact ((hk.mono fun _ h => by simp [h]).setReg (by simp) _).advance (by simp)
  · cases sf <;> simp

/-- What a test opcode leaves: the flags, then the advance (R351, R364 to R367). -/
theorem testOp_completes (hrd : rd ≠ 15) :
    let o := f (aluIn op rn s)
    ∃ t, testOp f cond rn rd op s = .next t ∧ t.pc = s.pc + 4
      ∧ FlagsAre t (o.res.getLsbD 31) (decide (o.res = 0)) o.c o.v ∧ SamePsrRest s t
      ∧ Keeps s t [pcSlot, cpsrSlot] [] ∧ t.mem = s.mem := by
  intro o
  have hexec : testOp f cond rn rd op s = .next (commitFlags o s).advance := by
    rw [testOp, armInstr_of_executes he, if_neg hrd, hop]
    rfl
  have hk := commitFlags_keeps o s
  have hpc : (commitFlags o s).pc = s.pc := hk.1.slots pcSlot (by decide)
  obtain ⟨hflags, hrest⟩ := flags_of_commitFlags (State.cpsr_advance (commitFlags o s))
  exact ⟨_, hexec, by rw [State.pc_advance, hpc], hflags, hrest, (hk.mono (by simp)).advance (by simp), rfl⟩

/-- With S = 1 and Rd = 15 the instruction ends as any exception return does (R353). -/
theorem dataOp_return : dataOp f cond true rn 15 op s = exceptionReturn (f (aluIn op rn s)).res s := by
  rw [dataOp, armInstr_of_executes he, hop]
  rfl

end

/-- Settles O15: a logical opcode completes with what its row says. -/
theorem logicalResults : Obligations.LogicalResults := by
  intro row hrow cond sf rn rd op s he hop hrd
  rw [exec_resultRow_out (List.mem_append_left _ hrow)]
  obtain ⟨make, g, rfl⟩ := logicalRow_eq hrow
  exact dataOp_completes he _ rn hop hrd sf

/-- Settles O16: an arithmetic opcode completes with what its row says. -/
theorem arithmeticResults : Obligations.ArithmeticResults := by
  intro row hrow cond sf rn rd op s he hop hrd
  rw [exec_resultRow_out (List.mem_append_right _ hrow)]
  exact dataOp_completes he row.out rn hop hrd sf

/-- Settles O17: a test opcode completes with the flags its row says. -/
theorem testResults : Obligations.TestResults := by
  intro row hrow cond rn rd op s he hop hrd
  rw [exec_testRow_out hrow]
  exact testOp_completes he row.out rn hop hrd

/-! ## The exception return -/

theorem exceptionReturn_noSpsr {s : State} (h : NoSpsr s) (v : Word) : exceptionReturn v s = .fault (.invalidModeAccess .read) := by
  simp only [exceptionReturn, restoreCpsr, curSpsr_none.mpr h]

/-- Settles O19: the twelve opcodes end with an exception return to their result. -/
theorem dataExceptionReturn : Obligations.DataExceptionReturn := by
  intro row hrow cond rn op s he hop i res
  have hexec : exec i s = exceptionReturn res s := (exec_resultRow_out hrow ..).trans (dataOp_return he row.out rn hop)
  rw [hexec]
  refine ⟨fun hs => exceptionReturn_noSpsr hs res, fun saved hc => ⟨fun hm => exceptionReturn_invalidMode hc hm res, fun m hm => ?_⟩⟩
  rw [exceptionReturn_restores hc hm, ← pcAligned_iff, ← t_loadCpsr s m saved]
  refine ⟨fun hal => ⟨_, pcWrite_aligned hal, ?_, rfl, State.pc_setPc _ _, .ofReturn (.refl s _ _) m saved res, rfl⟩,
    fun hal => pcWrite_misaligned (Bool.eq_false_iff.mpr hal)⟩
  rw [State.cpsr_setPc, State.cpsr_loadCpsr]

end Sys2Proof.Machine
end

section
/-! PROOFS of the family 47_psr_swi_undefined: MSR to the CPSR and to an SPSR (R49, R391 to R395). -/

namespace Sys2Proof.Machine

/-! ## Stored words -/

/-- A word whose reserved bits are clear is stored as it is (R49). -/
theorem and_psrMask_of_reserved {w : Word} (h : psrReserved w = 0) : w &&& psrMask = w := by
  apply BitVec.eq_of_getLsbD_eq
  intro i hi
  rw [BitVec.getLsbD_and, getLsbD_psrMask]
  by_cases hmid : 8 ≤ i ∧ i < 27
  · have hbit : (psrReserved w).getLsbD (i - 8) = false := by
      rw [h]
      exact BitVec.getLsbD_zero
    rw [psrReserved, getLsbD_fieldAt, Nat.add_sub_cancel' hmid.1, decide_eq_true (by omega), Bool.true_and] at hbit
    rw [hbit, Bool.false_and]
  · rw [show (decide (i < 8) || (decide (27 ≤ i) && decide (i < 32))) = true by grind, Bool.and_true]

theorem psrReserved_slot {s : State} (h : s.Inv) {k : Slot} (hk : 31 ≤ k.val) : psrReserved (s.slot k) = 0 :=
  State.reservedClear_iff.mp h.reserved k hk

/-! ## The word MSR writes -/

/-- A mask that keeps the bits MSR writes, below bit 32 (R392). -/
abbrev MasksMsr (mask : Word) (control : Bool) (m : BitVec 4) : Prop := ∀ j, j < 32 → mask.getLsbD j = msrWrites control m j

theorem masksMsr_spsr (m : BitVec 4) : MasksMsr (msrMask m) true m := fun j hj => by
  rw [getLsbD_msrMask, msrWrites, decide_eq_true hj, Bool.and_true, Bool.and_true]

/-- In User mode MSR leaves the control byte of the CPSR (R393). -/
theorem masksMsr_cpsr (m : BitVec 4) (s : State) :
    MasksMsr (if s.mode = .user then msrMask m &&& 0xFF000000 else msrMask m) (decide (s.mode ≠ .user)) m := fun j hj => by
  by_cases hu : s.mode = .user
  · rw [if_pos hu, BitVec.getLsbD_and, masksMsr_spsr m j hj, getLsbD_highByte, msrWrites, msrWrites]
    by_cases h8 : j < 8
    · simp [hu, show ¬ 27 ≤ j by omega, show ¬ 24 ≤ j by omega]
    · by_cases h27 : 27 ≤ j
      · simp [h8, hj, show 24 ≤ j by omega]
      · simp [h8, h27]
  · rw [if_neg hu, masksMsr_spsr m j hj, decide_eq_true hu]

section
variable {mask : Word} {control : Bool} {m : BitVec 4} (hmask : MasksMsr mask control m) (old v : Word)
include hmask

theorem getLsbD_mergePsr_msr {j : Nat} (hj : j < 32) :
    (mergePsr old mask v).getLsbD j = if msrWrites control m j then v.getLsbD j else old.getLsbD j := by
  rw [getLsbD_mergePsr, hmask j hj]

/-- MSR writes no reserved bit (R49, R392). -/
theorem mergePsr_stored {old : Word} (h : psrReserved old = 0) : mergePsr old mask v &&& psrMask = mergePsr old mask v := by
  apply and_psrMask_of_reserved
  rw [← h]
  refine psrReserved_congr fun k h8 h27 => ?_
  rw [getLsbD_mergePsr_msr hmask old v (by omega), if_neg]
  simp [msrWrites, show ¬ 27 ≤ k by omega, show ¬ k < 8 by omega]

end

/-! ## MSR to the CPSR -/

/-- The word MSR writes to the CPSR, if its T bit and its mode field allow it (R393). -/
def msrCpsrWord (m : BitVec 4) (v : Word) (s : State) : Word :=
  mergePsr s.cpsr (if s.mode = .user then msrMask m &&& 0xFF000000 else msrMask m) v

section
variable (m : BitVec 4) (v : Word) (s : State)

theorem getLsbD_msrCpsrWord {j : Nat} (hj : j < 32) :
    (msrCpsrWord m v s).getLsbD j = if msrWrites (decide (s.mode ≠ .user)) m j then v.getLsbD j else s.cpsr.getLsbD j :=
  getLsbD_mergePsr_msr (masksMsr_cpsr m s) _ _ hj

theorem msrCpsrWord_stored (hs : s.Inv) : msrCpsrWord m v s &&& psrMask = msrCpsrWord m v s :=
  mergePsr_stored (masksMsr_cpsr m s) v (psrReserved_slot hs (k := cpsrSlot) (by decide))

/-- The control byte is written as a whole or not at all (R392). -/
theorem modeField_msrCpsrWord (hs : s.Inv) :
    fieldAt (msrCpsrWord m v s) 0 5 = if msrWrites (decide (s.mode ≠ .user)) m 0 then fieldAt v 0 5 else s.mode.bits := by
  rw [← State.mapped_iff.mp hs.mapped, ← apply_ite (fieldAt · 0 5)]
  refine fieldAt_ext fun i hi => ?_
  have hbyte : msrWrites (decide (s.mode ≠ .user)) m (0 + i) = msrWrites (decide (s.mode ≠ .user)) m 0 := by
    simp [msrWrites, show ¬ 27 ≤ i by omega, show i < 8 by omega]
  rw [getLsbD_msrCpsrWord m v s (by omega), hbyte, apply_ite (BitVec.getLsbD · (0 + i))]

theorem msrCpsr_changesT (h : (msrCpsrWord m v s).getLsbD 5 ≠ s.cpsr.getLsbD 5) :
    msrCpsr m v s = .fault (.unpredictable .msrChangesT) := if_pos h

/-- Writing the CPSR with the mode it has is loading it (R51). -/
theorem State.setCpsr_eq_loadCpsr (w : Word) : s.setCpsr w = s.loadCpsr s.mode w :=
  State.ext_slots (fun k => by rw [State.slot_setCpsr, State.slot_loadCpsr]) rfl rfl rfl rfl rfl rfl rfl

variable {m v s} (hs : s.Inv) (h5 : (msrCpsrWord m v s).getLsbD 5 = s.cpsr.getLsbD 5)
include hs h5

theorem msrCpsr_invalidMode (hm : Mode.ofBits (fieldAt (msrCpsrWord m v s) 0 5) = none) :
    msrCpsr m v s = .fault (.unpredictable .invalidMode) := by
  have hne : fieldAt (msrCpsrWord m v s) 0 5 ≠ fieldAt s.cpsr 0 5 := fun e => by
    rw [e, State.mapped_iff.mp hs.mapped, Mode.ofBits_bits] at hm
    cases hm
  refine (if_neg (not_not_intro h5)).trans ((if_neg hne).trans ?_)
  rw [show Mode.ofBits (fieldAt (mergePsr _ _ _) 0 5) = none from hm]

theorem msrCpsr_loads {mode : Mode} (hm : Mode.ofBits (fieldAt (msrCpsrWord m v s) 0 5) = some mode) :
    msrCpsr m v s = .next (s.loadCpsr mode (msrCpsrWord m v s)).advance := by
  refine (if_neg (not_not_intro h5)).trans ?_
  by_cases heq : fieldAt (msrCpsrWord m v s) 0 5 = fieldAt s.cpsr 0 5
  · rw [heq, State.mapped_iff.mp hs.mapped, Mode.ofBits_bits] at hm
    cases hm
    rw [← s.setCpsr_eq_loadCpsr]
    exact if_pos heq
  · refine (if_neg heq).trans ?_
    rw [show Mode.ofBits (fieldAt (mergePsr _ _ _) 0 5) = some mode from hm]
    rfl

end

theorem loadCpsr_frame (s : State) (mode : Mode) (w : Word) : Frame s (s.loadCpsr mode w).advance [pcSlot, cpsrSlot] [] := by
  refine ⟨fun k hk => ?_, fun _ _ => rfl, ⟨rfl, rfl, rfl, rfl⟩⟩
  obtain ⟨hpc, hcpsr⟩ : k ≠ pcSlot ∧ k ≠ cpsrSlot := by simpa using hk
  rw [State.slot_advance, if_neg hpc, State.slot_loadCpsr, if_neg hcpsr]

section
variable {cond : Cond} {s : State} (he : Executes cond s) (mask : BitVec 4)
include he

theorem exec_msrCpsrReg {rm : Reg} (hrm : rm ≠ 15) : exec (.msrCpsrReg cond mask rm) s = msrCpsr mask (s.reg rm) s :=
  (armInstr_of_executes he _).trans (if_neg hrm)

theorem exec_msrCpsrReg_pc : exec (.msrCpsrReg cond mask 15) s = .fault (.unpredictable .msrFromPc) := armInstr_of_executes he _

theorem exec_msrCpsrImm (rot : BitVec 4) (imm8 : BitVec 8) :
    exec (.msrCpsrImm cond mask rot imm8) s = msrCpsr mask ((imm8.zeroExtend 32).rotateRight (2 * rot.toNat)) s :=
  armInstr_of_executes he _

theorem exec_msrSpsrReg {rm : Reg} (hrm : rm ≠ 15) : exec (.msrSpsrReg cond mask rm) s = msrSpsr mask (s.reg rm) s :=
  (armInstr_of_executes he _).trans (if_neg hrm)

theorem exec_msrSpsrReg_pc : exec (.msrSpsrReg cond mask 15) s = .fault (.unpredictable .msrFromPc) := armInstr_of_executes he _

theorem exec_msrSpsrImm (rot : BitVec 4) (imm8 : BitVec 8) :
    exec (.msrSpsrImm cond mask rot imm8) s = msrSpsr mask ((imm8.zeroExtend 32).rotateRight (2 * rot.toNat)) s :=
  armInstr_of_executes he _

end

/-- Settles O45: both forms load the CPSR with the merged word, whose T bit and mode field are checked first. -/
theorem msrCpsrResults : Obligations.MsrCpsrResults := by
  intro cond mask s he hs
  refine ⟨exec_msrCpsrReg_pc he mask, ?_⟩
  intro i v hi writes m
  have hexec : exec i s = msrCpsr mask v s := by
    obtain ⟨rm, hrm, rfl, rfl⟩ | ⟨rot, imm8, rfl, rfl⟩ := hi
    · exact exec_msrCpsrReg he mask hrm
    · exact exec_msrCpsrImm he mask rot imm8
  have ht : s.cpsr.getLsbD 5 = false := he.1
  have hbit : (msrCpsrWord mask v s).getLsbD 5 = if writes 5 then v.getLsbD 5 else s.cpsr.getLsbD 5 :=
    getLsbD_msrCpsrWord mask v s (by omega)
  have hfield : fieldAt (msrCpsrWord mask v s) 0 5 = m := modeField_msrCpsrWord mask v s hs
  rw [hexec]
  refine ⟨fun hw hv => msrCpsr_changesT mask v s ?_, fun hkeep => ?_⟩
  · rw [hbit, if_pos hw, hv, ht]
    decide
  · have h5 : (msrCpsrWord mask v s).getLsbD 5 = s.cpsr.getLsbD 5 := by
      rw [hbit]
      split
      · rw [hkeep (by assumption), ht]
      · rfl
    rw [← hfield]
    refine ⟨msrCpsr_invalidMode hs h5, fun mode hm =>
      ⟨_, msrCpsr_loads hs h5 hm, fun j hj => ?_, rfl, ?_, loadCpsr_frame s mode _, rfl⟩⟩
    · rw [State.cpsr_advance, State.cpsr_loadCpsr, msrCpsrWord_stored mask v s hs]
      exact getLsbD_msrCpsrWord mask v s hj
    · rw [State.pc_advance, State.pc_loadCpsr]

/-! ## MSR to an SPSR -/

theorem msrSpsr_noSpsr {s : State} (h : NoSpsr s) (m : BitVec 4) (v : Word) : msrSpsr m v s = .fault (.invalidModeAccess .write) := by
  rw [msrSpsr, curSpsr_none.mpr h]

/-- MSR to an SPSR writes the merged word to its slot (R395). -/
theorem msrSpsr_writes {s : State} (hs : s.Inv) {k : Slot} (hk : spsrSlot s.mode = some k) (m : BitVec 4) (v : Word) :
    msrSpsr m v s = .next (s.setSlot k (mergePsr (s.slot k) (msrMask m) v)).advance := by
  have hstored := mergePsr_stored (masksMsr_spsr m) v (psrReserved_slot hs (k := k) (by have := spsrSlot_ge hk; omega))
  rw [msrSpsr, curSpsr_some hk]
  simp only [State.setSpsr, hk, hstored]

/-- Settles O46: both forms write the merged word to the current SPSR, where there is one. -/
theorem msrSpsrResults : Obligations.MsrSpsrResults := by
  intro cond mask s he hs
  refine ⟨exec_msrSpsrReg_pc he mask, fun i v hi => ?_⟩
  have hexec : exec i s = msrSpsr mask v s := by
    obtain ⟨rm, hrm, rfl, rfl⟩ | ⟨rot, imm8, rfl, rfl⟩ := hi
    · exact exec_msrSpsrReg he mask hrm
    · exact exec_msrSpsrImm he mask rot imm8
  rw [hexec]
  refine ⟨fun hn => msrSpsr_noSpsr hn mask v, fun k hk => ?_⟩
  have hpc : k ≠ pcSlot := ne_pcSlot (by have := spsrSlot_ge hk; omega)
  refine ⟨_, msrSpsr_writes hs hk mask v, fun j hj => ?_, ?_, ((Keeps.refl s _ _).setSlot (by simp) _).advance (by simp), rfl⟩
  · rw [State.slot_advance, if_neg hpc, State.slot_setSlot, if_pos rfl]
    exact getLsbD_mergePsr_msr (masksMsr_spsr mask) _ _ hj
  · rw [State.pc_advance, State.pc, State.slot_setSlot, if_neg hpc.symm, State.pc]

end Sys2Proof.Machine
end

section
/-! PROOFS of the family 47_psr_swi_undefined: the words of the trap families and their fields (R120, R125, R130), and the traps under
either TRAP_POLICY (R400, R410 to R412, R455). -/

namespace Sys2Proof

/-! ## Words and their fields -/

theorem Cond.code_ofCode (c : BitVec 4) : (Cond.ofCode c).code = c := by
  revert c
  decide

/-- A field put back at its place is what a mask of that field keeps of the word. -/
theorem place_fieldAt (w : Word) (lo n : Nat) : place lo (fieldAt w lo n) = w &&& place lo (BitVec.allOnes n) := by
  apply BitVec.eq_of_getLsbD_eq
  intro i hi
  rw [BitVec.getLsbD_and, Machine.getLsbD_place, Machine.getLsbD_place, Machine.getLsbD_fieldAt, BitVec.getLsbD_allOnes]
  by_cases hlo : lo ≤ i
  · simp [hi, hlo, Nat.add_sub_cancel' hlo, Bool.and_comm]
  · simp [hlo]

theorem place_condOf (w : Word) : place 28 (condOf w).code = w &&& place 28 (BitVec.allOnes 4) := by
  rw [condOf, Cond.code_ofCode, place_fieldAt]

theorem place_of_fieldAt {w : Word} {lo n : Nat} {v : BitVec n} (h : fieldAt w lo n = v) :
    place lo v = w &&& place lo (BitVec.allOnes n) := by
  rw [← h, place_fieldAt]

theorem placeBit_of_getLsbD {w : Word} {lo : Nat} {b : Bool} (h : w.getLsbD lo = b) :
    placeBit lo b = w &&& place lo (BitVec.allOnes 1) := by
  refine place_of_fieldAt (BitVec.eq_of_getLsbD_eq fun i hi => ?_)
  obtain rfl : i = 0 := by omega
  rw [Machine.getLsbD_fieldAt, Nat.add_zero, h]
  simp

/-- What the masks of its fields keep of a word is the word, where they leave no bit out. -/
theorem and_mask_eq {w m : Word} (h : m = BitVec.allOnes 32) : w &&& m = w := by rw [h, BitVec.and_allOnes]

/-! ## The words of the trap families -/

/-- A word of the Undefined family is the encoding of its fields (R120). -/
theorem encUnd_fields {w : Word} (h : w &&& 0x0E000010 = 0x06000010) : encUnd (condOf w) (fieldAt w 5 20) (fieldAt w 0 4) = w := by
  rw [encUnd, ← h, place_condOf, place_fieldAt, place_fieldAt]
  simp only [← BitVec.and_or_distrib_left]
  exact and_mask_eq (by decide)

section
variable {w : Word}

/-- A word of the LDC or the STC row is the encoding of its fields (R125). -/
theorem encLdc_fields {base : Word} {l : Bool} (hbase : base = place 25 6#3 ||| placeBit 20 l) (h : fieldAt w 25 3 = 6#3)
    (h20 : w.getLsbD 20 = l) : encLdc base (condOf w) (fieldAt w 21 4) (fieldAt w 0 20) = w := by
  rw [encLdc, hbase, place_of_fieldAt h, placeBit_of_getLsbD h20, place_condOf, place_fieldAt, place_fieldAt]
  simp only [← BitVec.and_or_distrib_left]
  exact and_mask_eq (by decide)

/-- A word of the MRC or the MCR row is the encoding of its fields (R125). -/
theorem encMcr_fields {base : Word} {l : Bool} (hbase : base = place 24 14#4 ||| placeBit 4 true ||| placeBit 20 l)
    (h : fieldAt w 24 4 = 14#4) (h4 : w.getLsbD 4 = true) (h20 : w.getLsbD 20 = l) :
    encMcr base (condOf w) (fieldAt w 21 3) (fieldAt w 5 15) (fieldAt w 0 4) = w := by
  rw [encMcr, hbase, place_of_fieldAt h, placeBit_of_getLsbD h4, placeBit_of_getLsbD h20, place_condOf, place_fieldAt, place_fieldAt,
    place_fieldAt]
  simp only [← BitVec.and_or_distrib_left]
  exact and_mask_eq (by decide)

/-- A word of the CDP row is the encoding of its fields (R125). -/
theorem encCdp_fields (h : fieldAt w 24 4 = 14#4) (h4 : w.getLsbD 4 = false) :
    encCdp (condOf w) (fieldAt w 5 19) (fieldAt w 0 4) = w := by
  have hbase : (0x0E000000 : Word) = place 24 14#4 ||| placeBit 4 false := by decide
  rw [encCdp, hbase, place_of_fieldAt h, placeBit_of_getLsbD h4, place_condOf, place_fieldAt, place_fieldAt]
  simp only [← BitVec.and_or_distrib_left]
  exact and_mask_eq (by decide)

end

/-! ## The row of a classified word -/

/-- A classified word matches a row of its kind (R130). -/
theorem firstMatch_some {n : Nat} {κ : Type} {w : BitVec n} {rows : List (ClassRow n κ)} {k : κ} (h : firstMatch w rows = some k) :
    ∃ r ∈ rows, w &&& r.mask = r.format ∧ r.kind = k := by
  induction rows with
  | nil => cases h
  | cons r rows ih =>
    rw [firstMatch] at h
    split at h
    · cases h
      exact ⟨r, List.mem_cons_self, by assumption, rfl⟩
    · obtain ⟨q, hq, hw⟩ := ih h
      exact ⟨q, List.mem_cons_of_mem _ hq, hw⟩

theorem classifyArm_row {w : Word} {k : ArmKind} (hk : k ≠ .unmatched) (h : classifyArm w = k) :
    ∃ r ∈ armRows, w &&& r.mask = r.format ∧ r.kind = k := by
  rw [classifyArm] at h
  cases hm : firstMatch w armRows with
  | none => exact absurd (by rw [← h, hm]; rfl) hk
  | some k' =>
    rw [hm] at h
    cases h
    exact firstMatch_some hm

theorem mask_of_classifyArm_undefined {w : Word} (h : classifyArm w = .undefined) : w &&& 0x0E000010 = 0x06000010 := by
  obtain ⟨r, hr, hw, hk⟩ := classifyArm_row (by decide) h
  have hrow : ∀ r ∈ armRows, r.kind = .undefined → r.mask = 0x0E000010 ∧ r.format = 0x06000010 := by decide
  obtain ⟨hmask, hformat⟩ := hrow r hr hk
  rwa [hmask, hformat] at hw

theorem decodeArm_unmatched {w : Word} (h : classifyArm w = .unmatched) : decodeArm w = decodeUnmatched w := by
  rw [decodeArm, h]

theorem decodeArm_undefined {w : Word} (h : classifyArm w = .undefined) :
    decodeArm w = .ok (.und (condOf w) (fieldAt w 5 20) (fieldAt w 0 4)) := by
  rw [decodeArm, h]

theorem decodeArm_softwareInterrupt {w : Word} (h : classifyArm w = .softwareInterrupt) :
    decodeArm w = .ok (.swi (condOf w) (fieldAt w 0 24)) := by
  rw [decodeArm, h]

end Sys2Proof

namespace Sys2Proof.Machine

/-! ## The two policies -/

theorem undefinedTrap_enter {s : State} (h : s.trapPolicy = .enter) (w : Word) :
    undefinedTrap w s = .next (enterException .und s) := by
  rw [undefinedTrap, h]

theorem undefinedTrap_report {s : State} (h : s.trapPolicy = .report) (w : Word) : undefinedTrap w s = .fault (.undefined w) := by
  rw [undefinedTrap, h]

theorem softwareTrap_enter {s : State} (h : s.trapPolicy = .enter) (imm24 : BitVec 24) :
    softwareTrap imm24 s = .next (enterException .swi s) := by
  rw [softwareTrap, h]

theorem softwareTrap_report {s : State} (h : s.trapPolicy = .report) (imm24 : BitVec 24) :
    softwareTrap imm24 s = .fault (.softwareInterrupt imm24) := by
  rw [softwareTrap, h]

theorem exec_swi {cond : Cond} {s : State} (he : Executes cond s) (imm24 : BitVec 24) :
    exec (.swi cond imm24) s = softwareTrap imm24 s := armInstr_of_executes he _

/-! ## Every trap ends as a word of its family does -/

/-- An answer to a word that is no instruction is the Undefined trap of that word (R411). -/
theorem answers_illegal {s : State} {w : Word} {r : Result} {e : DecodeError} (he : Executes (condOf w) s)
    (hd : decodeArm w = .error e) (hr : Answers s w r) : r = undefinedTrap w s := by
  rw [answers_eq he.1 hr, stepOpcode_illegal he.1 hd]
  exact armInstr_of_executes he _

/-- Every instruction of the coprocessor space is the Undefined trap of its own word (R412). -/
theorem exec_decodeUnmatched {s : State} {w : Word} {i : Instr} (he : Executes (condOf w) s) (hd : decodeUnmatched w = .ok i) :
    exec i s = undefinedTrap w s := by
  unfold decodeUnmatched at hd
  split at hd
  case isTrue h =>
    split at hd <;> rename_i h20 <;> cases hd <;> refine (armInstr_of_executes he _).trans ?_
    · rw [encLdc_fields (by decide) h h20]
    · rw [encLdc_fields (by decide) h (Bool.eq_false_iff.mpr h20)]
  case isFalse =>
    split at hd
    case isTrue h =>
      split at hd <;> rename_i h4
      · split at hd <;> rename_i h20 <;> cases hd <;> refine (armInstr_of_executes he _).trans ?_
        · rw [encMcr_fields (by decide) h h4 h20]
        · rw [encMcr_fields (by decide) h h4 (Bool.eq_false_iff.mpr h20)]
      · cases hd
        refine (armInstr_of_executes he _).trans ?_
        rw [encCdp_fields h (Bool.eq_false_iff.mpr h4)]
    case isFalse => cases hd

/-- An answer to a word of the Undefined family, of the coprocessor space or of no instruction is the Undefined trap of that word
(R410 to R412). -/
theorem answers_undefined {s : State} {w : Word} {r : Result} (he : Executes (condOf w) s) (hr : Answers s w r)
    (hw : classifyArm w = .undefined ∨ classifyArm w = .unmatched ∨ ∃ e, decodeArm w = .error e) : r = undefinedTrap w s := by
  cases hd : decodeArm w with
  | error e => exact answers_illegal he hd hr
  | ok i =>
    rw [answers_eq he.1 hr, stepOpcode_arm he.1 hd]
    obtain hw | hw | ⟨e, hw⟩ := hw
    · cases (decodeArm_undefined hw).symm.trans hd
      refine (armInstr_of_executes he _).trans ?_
      rw [encUnd_fields (mask_of_classifyArm_undefined hw)]
    · exact exec_decodeUnmatched he ((decodeArm_unmatched hw).symm.trans hd)
    · cases hw.symm.trans hd

theorem answers_softwareInterrupt {s : State} {w : Word} {r : Result} (he : Executes (condOf w) s) (hr : Answers s w r)
    (hw : classifyArm w = .softwareInterrupt) : r = softwareTrap (fieldAt w 0 24) s := by
  rw [answers_eq he.1 hr, stepOpcode_arm he.1 (decodeArm_softwareInterrupt hw), exec_swi he]

/-- Settles O49: each family's answer is its trap, which reports the word or its comment field. -/
theorem trapsReport : Obligations.TrapsReport := by
  intro s w r ht hc hp hr
  have he : Executes (condOf w) s := ⟨ht, hc⟩
  refine ⟨fun hw => ?_, fun hw => ?_⟩
  · rw [answers_softwareInterrupt he hr hw, softwareTrap_report hp]
  · rw [answers_undefined he hr hw, undefinedTrap_report hp]

/-- Settles O48: behind its gate each instruction is a trap, which enters its exception. -/
theorem trapsEnter : Obligations.TrapsEnter := by
  intro cond s he hp
  have hund (w : Word) : armInstr cond s (undefinedTrap w s) = .next (enterException .und s) :=
    (armInstr_of_executes he _).trans (undefinedTrap_enter hp w)
  refine ⟨fun imm24 => (exec_swi he imm24).trans (softwareTrap_enter hp imm24), fun _ _ => hund _, fun _ _ => hund _,
    fun _ _ _ => hund _, fun _ _ _ => hund _, fun _ _ => hund _, fun _ _ => hund _, ?_⟩
  rintro w e r hd rfl hr
  rw [answers_illegal he hd hr, undefinedTrap_enter hp]

end Sys2Proof.Machine
end

section
/-! PROOFS of the family 48_thumb: the refusal of THUMB execution (R440), the ways into THUMB state (R441), and words of the test
vectors (95_test_vectors.md). -/

namespace Sys2Proof.Machine

/-! ## THUMB execution is refused -/

/-- Each of the 62 THUMB instructions is refused, in either state (R440). -/
theorem exec_isThumb {i : Instr} (h : i.isThumb = true) (s : State) : exec i s = .refused .thumbExecution := by
  cases i <;> cases h <;> rfl

theorem isThumb_of_cond?_none {i : Instr} (h : i.cond? = none) : i.isThumb = true := by
  cases i <;> cases h <;> rfl

/-- In THUMB state no instruction passes its gate, and one without a gate is a THUMB instruction (R440). -/
theorem exec_thumbState {s : State} (ht : s.t = true) (i : Instr) : exec i s = .refused .thumbExecution := by
  cases hc : i.cond? with
  | none => exact exec_isThumb (isThumb_of_cond?_none hc) s
  | some c =>
    obtain ⟨body, hgate⟩ := exec_gate hc s
    rw [hgate, armInstr_thumb ht]

theorem stepOpcode_thumbState {s : State} (ht : s.t = true) (opcode : Word) : stepOpcode s opcode = .refused .thumbExecution := by
  cases hd : decodeThumb (fieldAt opcode 0 16) with
  | ok i => rw [stepOpcode_thumb ht hd, exec_thumbState ht]
  | error e =>
    simp only [stepOpcode, ht, if_true, hd]
    rfl

/-- Settles O10: the refusal of `exec`, and with it that of both steps. -/
theorem thumbExecutionRefused : Obligations.ThumbExecutionRefused := by
  refine ⟨fun s ht => ⟨?_, stepOpcode_thumbState ht, exec_thumbState ht⟩, fun i s hi => exec_isThumb hi s⟩
  rw [step_eq_stepOpcode fun hf => by cases ht.symm.trans hf]
  exact stepOpcode_thumbState ht _

/-! ## The ways into THUMB state -/

theorem State.t_advance (s : State) : s.advance.t = s.t := s.t_setPc _

/-- Every exception entry clears T (R460). -/
theorem t_enterException (kind : ExceptionKind) (s : State) : (enterException kind s).t = false := by
  rw [State.t, cpsr_enterException, BitVec.getLsbD_and, getLsbD_exceptionCpsr]
  rfl

/-- However an instruction ends in ARM state, T stays clear but for BX and an exception return (R441). -/
theorem Ending.thumb {i : Instr} {s t : State} (h : Ending i s t) (hs : s.t = false) (ht : t.t = true) :
    (∃ cond rm, i = .bx cond rm ∧ (s.reg rm).getLsbD 0 = true)
      ∨ (i.returns = true ∧ ∃ saved, s.curSpsr = some saved ∧ saved.getLsbD 5 = true) := by
  cases h with
  | exchange cond rm hi _ =>
    rw [State.t_setPc, State.t_setT] at ht
    exact .inl ⟨cond, rm, hi, ht⟩
  | restore saved v m hx hret hc _ _ =>
    rw [State.t_setPc, t_loadCpsr] at ht
    exact .inr ⟨hret, saved, hx.curSpsr ▸ hc, ht⟩
  | advance hx =>
    rw [State.t_advance, hx.t, hs] at ht
    cases ht
  | jump v hx _ =>
    rw [State.t_setPc, hx.t, hs] at ht
    cases ht
  | psr new _ _ h5 _ =>
    rw [State.t_advance, State.t_setCpsr, h5] at ht
    cases hs.symm.trans ht
  | psrMode new m _ _ h5 _ =>
    rw [State.t_advance, t_loadCpsr, h5] at ht
    cases hs.symm.trans ht
  | spsr v _ =>
    rw [State.t_advance, State.t_setSpsr, hs] at ht
    cases ht
  | trap kind _ _ => cases (t_enterException kind s).symm.trans ht

/-- Settles O55, through the endings of every instruction. -/
theorem thumbStateReached : Obligations.ThumbStateReached := fun _ _ _ h ht => (exec_next h).thumb (exec_next_arm h) ht

/-! ## Words of the test vectors -/

/-- Settles O3: the decoder computes on each word. -/
theorem sampleWordsDecode : Obligations.SampleWordsDecode :=
  ⟨rfl, rfl, rfl, rfl, rfl, rfl, rfl, rfl, rfl, rfl, rfl, rfl⟩

end Sys2Proof.Machine
end

section
/-! PROOFS of the family 60_exceptions: exception entry by kind (R460), and the masks of the driver's trap entry (R461). -/

namespace Sys2Proof.Machine

/-! ## What an exception entry leaves -/

/-- The CPSR of an exception entry is stored as it is: no kind writes a reserved bit (R49, R460). -/
theorem cpsr_enterException_reserved (kind : ExceptionKind) {s : State} (h : psrReserved s.cpsr = 0) :
    (enterException kind s).cpsr = kind.cpsr s.cpsr := by
  rw [cpsr_enterException]
  apply and_psrMask_of_reserved
  rw [← h]
  refine psrReserved_congr fun k h8 _ => ?_
  rw [getLsbD_exceptionCpsr, if_neg (by omega), if_neg (by omega), if_neg (by omega), if_neg (by omega)]

@[simp] theorem enterException_mode (kind : ExceptionKind) (s : State) : (enterException kind s).mode = kind.mode := by
  simp [enterException]

@[simp] theorem enterException_mem (kind : ExceptionKind) (s : State) : (enterException kind s).mem = s.mem := by
  simp [enterException]

/-- The mode of every kind has an SPSR (R460). -/
theorem spsrSlot_exceptionMode (kind : ExceptionKind) : ∃ k, spsrSlot kind.mode = some k := by
  cases kind <;> exact ⟨_, rfl⟩

/-- Every slot after an exception entry: the PC, the CPSR, r14 and the SPSR of the new mode, and the rest as before (R460). -/
theorem slot_enterException (kind : ExceptionKind) (s : State) {spsr : Slot} (h : spsrSlot kind.mode = some spsr) (k : Slot) :
    (enterException kind s).slot k =
      if k = pcSlot then kind.vector
      else if k = cpsrSlot then kind.cpsr s.cpsr &&& psrMask
      else if k = mapReg kind.mode 14 then s.pc + kind.link
      else if k = spsr then s.cpsr &&& psrMask
      else s.slot k := by
  have hmode : ((s.enterMode kind.mode).setSpsr s.cpsr).mode = kind.mode := by simp
  rw [enterException, State.slot_setPc, State.slot_setCpsr, State.slot_setReg, hmode, State.slot_setSpsr h, State.slot_enterMode]
  split
  · rfl
  · split <;> rfl

section
variable (kind : ExceptionKind) {s : State} {spsr : Slot} (h : spsrSlot kind.mode = some spsr)
include h

theorem enterException_frame : Frame s (enterException kind s) [mapReg kind.mode 14, spsr, pcSlot, cpsrSlot] [] := by
  refine ⟨fun k hk => ?_, fun a _ => State.readByte_congr_mem (enterException_mem kind s) a, enterException_sameParams kind s⟩
  simp only [List.mem_cons, List.not_mem_nil, or_false, not_or] at hk
  obtain ⟨hlink, hspsr, hpc, hcpsr⟩ := hk
  rw [slot_enterException kind s h, if_neg hpc, if_neg hcpsr, if_neg hlink, if_neg hspsr]

theorem enterException_link : (enterException kind s).slot (mapReg kind.mode 14) = s.pc + kind.link := by
  rw [slot_enterException kind s h, if_neg (mapReg_ne_pc _ _ (by decide)), if_neg (mapReg_ne_cpsr _ _), if_pos rfl]

theorem enterException_spsr (hs : psrReserved s.cpsr = 0) : (enterException kind s).slot spsr = s.cpsr := by
  have hge : 32 ≤ spsr.val := spsrSlot_ge h
  have hlink : spsr ≠ mapReg kind.mode 14 := fun e => by
    have := mapReg_lt kind.mode 14 (by decide)
    rw [← e] at this
    omega
  rw [slot_enterException kind s h, if_neg (ne_pcSlot (by omega)), if_neg (ne_cpsrSlot hge), if_neg hlink, if_pos rfl,
    and_psrMask_of_reserved hs]

end

/-! ## The driver's masks -/

/-- The driver's trap entry is the entry, but for a masked interrupt (R461). -/
theorem hostEnterException_eq (kind : ExceptionKind) (s : State) :
    hostEnterException kind s =
      if (kind = .irq ∧ s.cpsr.getLsbD 7 = true) ∨ (kind = .fiq ∧ s.cpsr.getLsbD 6 = true) then none
      else some (enterException kind s) := by
  cases kind <;> simp [hostEnterException]

/-- What R460 says of each kind is what the model's tables say. -/
theorem exceptionTable {kind : ExceptionKind} {mode : Mode} {vector link : Word} {r14 spsr : Slot}
    (h : (kind, mode, vector, link, r14, spsr) ∈
      ([(.und, .undefined, 0x04, 4, 29, 36), (.swi, .supervisor, 0x08, 4, 25, 34), (.pabt, .abort, 0x0C, 4, 27, 35),
        (.dabt, .abort, 0x10, 8, 27, 35), (.irq, .irq, 0x18, 4, 23, 33), (.fiq, .fiq, 0x1C, 4, 21, 32)] :
        List (ExceptionKind × Mode × Word × Word × Slot × Slot))) :
    mode = kind.mode ∧ vector = kind.vector ∧ link = kind.link ∧ r14 = mapReg kind.mode 14 ∧ spsrSlot kind.mode = some spsr := by
  simp only [List.mem_cons, List.not_mem_nil, or_false] at h
  obtain h | h | h | h | h | h := h <;> cases h <;> exact ⟨rfl, rfl, rfl, rfl, rfl⟩

/-- Settles O47: the slots of the entry, and its CPSR bit by bit. -/
theorem exceptionEntry : Obligations.ExceptionEntry := by
  intro kind mode vector link r14 spsr hrow s hs
  obtain ⟨rfl, rfl, rfl, rfl, hspsr⟩ := exceptionTable hrow
  have hbit (i : Nat) := congrArg (·.getLsbD i) (cpsr_enterException_reserved kind hs)
  simp only [getLsbD_exceptionCpsr] at hbit
  refine ⟨enterException_mode kind s, State.pc_setPc _ _, enterException_link kind hspsr, enterException_spsr kind hspsr hs, ?_, hbit 5,
    hbit 7, hbit 6, fun i h8 _ => ?_, enterException_frame kind hspsr, enterException_mem kind s, hostEnterException_eq kind s⟩
  · rw [cpsr_enterException_reserved kind hs, modeField_exceptionCpsr]
  · rw [hbit, if_neg (by omega), if_neg (by omega), if_neg (by omega), if_neg (by omega)]

end Sys2Proof.Machine
end

section
/-! PROOFS of the family 30_encoding: the rows that the known bits of an opcode leave open (R130, R150), and the undefined halfwords
(R151). -/

namespace Sys2Proof

/-! ## The rows that known bits leave open -/

section
variable {n : Nat} {κ : Type}

/-- What classification can answer for an opcode whose bits under `known` are `bits`: a row is passed over where a known bit differs
from its format, and no later row is reached where the known bits cover its mask. -/
def possibleKinds (known bits : BitVec n) : List (ClassRow n κ) → List (Option κ)
  | [] => [none]
  | r :: rows =>
    if bits &&& r.mask ≠ r.format &&& known then possibleKinds known bits rows
    else if r.mask &&& known = r.mask ∧ bits &&& r.mask = r.format then [some r.kind]
    else some r.kind :: possibleKinds known bits rows

variable {w known bits : BitVec n}

theorem firstMatch_mem_possibleKinds (hw : w &&& known = bits) (rows : List (ClassRow n κ)) :
    firstMatch w rows ∈ possibleKinds known bits rows := by
  induction rows with
  | nil => exact List.mem_singleton_self _
  | cons r rows ih =>
    have hbits : bits &&& r.mask = w &&& r.mask &&& known := by rw [← hw, BitVec.and_assoc, BitVec.and_comm known, BitVec.and_assoc]
    rw [firstMatch, possibleKinds]
    by_cases hdiff : bits &&& r.mask ≠ r.format &&& known
    · have hrow : ¬ w &&& r.mask = r.format := fun h => hdiff (by rw [hbits, h])
      rwa [if_pos hdiff, if_neg hrow]
    · rw [if_neg hdiff]
      by_cases hcover : r.mask &&& known = r.mask ∧ bits &&& r.mask = r.format
      · have hrow : w &&& r.mask = r.format := by
          rw [← hcover.2, hbits, BitVec.and_assoc, hcover.1]
        rw [if_pos hcover, if_pos hrow]
        exact List.mem_singleton_self _
      · rw [if_neg hcover]
        split
        · exact List.mem_cons_self
        · exact List.mem_cons_of_mem _ ih

/-- Known bits that leave one answer open decide it. -/
theorem firstMatch_of_possibleKinds {rows : List (ClassRow n κ)} {k : Option κ} (hw : w &&& known = bits)
    (hk : possibleKinds known bits rows = [k]) : firstMatch w rows = k :=
  List.mem_singleton.mp (hk ▸ firstMatch_mem_possibleKinds hw rows)

end

theorem classifyArm_of_possibleKinds {w known bits : Word} {k : ArmKind} (hw : w &&& known = bits)
    (hk : possibleKinds known bits armRows = [some k]) : classifyArm w = k := by
  rw [classifyArm, firstMatch_of_possibleKinds hw hk]
  rfl

/-- A kind that the known bits leave out is not the word's. -/
theorem classifyArm_ne_of_possibleKinds {w known bits : Word} {k : ArmKind} (hw : w &&& known = bits)
    (hk : k ∉ (possibleKinds known bits armRows).map (·.getD .unmatched)) : classifyArm w ≠ k := by
  rintro rfl
  exact hk (List.mem_map_of_mem (firstMatch_mem_possibleKinds hw armRows))

/-! ## Fields of an opcode of either length -/

section
variable {m : Nat} {v : BitVec m}

/-- A field put back at its place is what a mask of that field keeps of the opcode. -/
theorem place_fieldAt_and (v : BitVec m) (lo n : Nat) : place lo (fieldAt v lo n) = v &&& place lo (BitVec.allOnes n) := by
  refine BitVec.eq_of_getLsbD_eq fun i hi => ?_
  rw [BitVec.getLsbD_and, Machine.getLsbD_place, Machine.getLsbD_place, Machine.getLsbD_fieldAt, BitVec.getLsbD_allOnes]
  by_cases hlo : lo ≤ i
  · simp [hi, hlo, Nat.add_sub_cancel' hlo, Bool.and_comm]
  · simp [hlo]

end

/-! ## The undefined halfwords (R151) -/

/-- The high byte of the halfwords of R151. -/
def UndefinedHighByte (b : Nat) : Prop :=
  (0xB1 ≤ b ∧ b ≤ 0xB3) ∨ (0xB6 ≤ b ∧ b ≤ 0xBB) ∨ (0xBE ≤ b ∧ b ≤ 0xBF) ∨ b = 0xDE ∨ (0xE8 ≤ b ∧ b ≤ 0xEF)

/-- The high byte decides the row of R150. -/
theorem possibleKinds_highByte (b : BitVec 8) :
    ∀ k ∈ possibleKinds 0xFF00 (place 8 b) thumbRows, k.getD .undefined = .undefined ↔ UndefinedHighByte b.toNat := by
  unfold UndefinedHighByte
  revert b
  decide

/-- Settles O5: every row of R150 tests only bits of the high byte. -/
theorem thumbUndefinedHalfwords : Obligations.ThumbUndefinedHalfwords := by
  intro h
  have hbyte : h &&& 0xFF00 = place 8 (fieldAt h 8 8) := (place_fieldAt_and h 8 8).symm
  have hk := possibleKinds_highByte _ _ (firstMatch_mem_possibleKinds hbyte thumbRows)
  have hdiv : (fieldAt h 8 8).toNat = h.toNat / 256 := by
    rw [Machine.toNat_fieldAt]
    omega
  rw [hdiv] at hk
  refine hk.trans ?_
  unfold UndefinedHighByte
  omega

end Sys2Proof
end

section
/-! PROOFS of the family 30_encoding: the ARM words without an instruction (R133). -/

namespace Sys2Proof

/-! ## What the row of a classified opcode says of its bits -/

/-- Where no two rows have the same kind, an opcode of a row's kind matches that row. -/
theorem matches_of_firstMatch {n : Nat} {κ : Type} {w : BitVec n} {rows : List (ClassRow n κ)} {r : ClassRow n κ}
    (hkinds : (rows.map ClassRow.kind).Nodup) (hr : r ∈ rows) (h : firstMatch w rows = some r.kind) : w &&& r.mask = r.format := by
  obtain ⟨q, hq, hw, hk⟩ := firstMatch_some h
  rwa [List.inj_on_of_nodup_map hkinds hq hr hk] at hw

theorem matches_of_classifyArm {w mask format : Word} {k : ArmKind} (h : classifyArm w = k) (hr : ⟨mask, format, k⟩ ∈ armRows) :
    w &&& mask = format := by
  have hk : ∀ r ∈ armRows, r.kind ≠ .unmatched := by decide
  refine matches_of_firstMatch (r := ⟨mask, format, k⟩) (by decide) hr ?_
  rw [classifyArm] at h
  cases hm : firstMatch w armRows with
  | none => exact absurd (by rw [← h, hm]; rfl) (hk _ hr)
  | some k' => rw [← h, hm]; rfl

theorem getLsbD_of_and_eq {n : Nat} {w mask format : BitVec n} (h : w &&& mask = format) (i : Nat) (hi : mask.getLsbD i = true) :
    w.getLsbD i = format.getLsbD i := by
  rw [← h, BitVec.getLsbD_and, hi, Bool.and_true]

/-! ## The families with illegal sub-encodings -/

/-- A data-processing word is illegal where its opcode is a test's and S is 0 (R133 item 1). -/
theorem decodeDataProcessing_error_iff (w : Word) :
    (∃ e, decodeDataProcessing w = .error e) ↔ fieldAt w 23 2 = 2 ∧ w.getLsbD 20 = false := by
  have htest : fieldAt w 23 2 = 2 ↔ (fieldAt w 21 4).toNat / 4 = 2 := by
    rw [← BitVec.toNat_inj, Machine.toNat_fieldAt, Machine.toNat_fieldAt]
    change _ = 2 ↔ _
    omega
  have hop : (fieldAt w 21 4).toNat < 16 := (fieldAt w 21 4).isLt
  rw [htest, decodeDataProcessing]
  generalize (fieldAt w 21 4).toNat = op at hop
  interval_cases op <;> cases w.getLsbD 20 <;> simp

/-- A halfword word is illegal where SH = 00, where a store has SH = 10 or 11, or where a register offset has bits 11:8 set (R133
items 2 to 4). -/
theorem decodeHalfword_error_iff (w : Word) :
    (∃ e, decodeHalfword w = .error e) ↔
      (fieldAt w 5 2 = 0 ∨ (w.getLsbD 20 = false ∧ w.getLsbD 6 = true)) ∨ (w.getLsbD 22 = false ∧ fieldAt w 8 4 ≠ 0) := by
  have hhigh : w.getLsbD 6 = (fieldAt w 5 2).getLsbD 1 := by rw [Machine.getLsbD_fieldAt]; rfl
  rw [hhigh, decodeHalfword]
  generalize fieldAt w 5 2 = sh
  have hsh : sh = 0 ∨ sh = 1 ∨ sh = 2 ∨ sh = 3 := by revert sh; decide
  obtain rfl | rfl | rfl | rfl := hsh <;> cases w.getLsbD 20 <;> cases w.getLsbD 22 <;> by_cases hoff : fieldAt w 8 4 = 0#4 <;>
    simp [hoff, -BitVec.getLsbD_eq_getElem]

/-- A word that no row of R130 matches is in the coprocessor space (R125, R131). -/
theorem coprocessor_of_unmatched {w : Word} (h : classifyArm w = .unmatched) : fieldAt w 25 3 = 6 ∨ fieldAt w 24 4 = 14 := by
  have hspace : ∀ b : BitVec 4,
      .unmatched ∈ (possibleKinds 0x0F000000 (place 24 b) armRows).map (·.getD .unmatched) → b.toNat / 2 = 6 ∨ b = 14 := by decide
  have hbits : w &&& 0x0F000000 = place 24 (fieldAt w 24 4) := (place_fieldAt w 24 4).symm
  refine (hspace (fieldAt w 24 4) ?_).imp_left fun hb => ?_
  · by_contra hne
    exact classifyArm_ne_of_possibleKinds hbits hne h
  · rw [Machine.toNat_fieldAt] at hb
    rw [← BitVec.toNat_inj, Machine.toNat_fieldAt]
    change _ = 6
    omega

theorem decodeUnmatched_ok {w : Word} (h : classifyArm w = .unmatched) : ∃ i, decodeUnmatched w = .ok i := by
  have hspace := coprocessor_of_unmatched h
  unfold decodeUnmatched
  split
  · split <;> exact ⟨_, rfl⟩
  next hldc =>
    rw [if_pos (hspace.resolve_left hldc)]
    split
    · split <;> exact ⟨_, rfl⟩
    · exact ⟨_, rfl⟩

/-- Settles O4: only the data-processing and the halfword families have words without an instruction. -/
theorem illegalArmWords : Obligations.IllegalArmWords := by
  intro w
  cases h : classifyArm w with
  | dataProcessing => simp [decodeArm, h, decodeDataProcessing_error_iff]
  | halfwordReg =>
    have hrow : w &&& 0x0E400090 = 0x00000090 := matches_of_classifyArm h (by simp [armRows])
    have h22 : w.getLsbD 22 = false := getLsbD_of_and_eq hrow 22 (by decide)
    simp [decodeArm, h, decodeHalfword_error_iff, h22, -BitVec.getLsbD_eq_getElem]
  | halfwordImm =>
    have hrow : w &&& 0x0E400090 = 0x00400090 := matches_of_classifyArm h (by simp [armRows])
    have h22 : w.getLsbD 22 = true := getLsbD_of_and_eq hrow 22 (by decide)
    simp [decodeArm, h, decodeHalfword_error_iff, h22, -BitVec.getLsbD_eq_getElem]
  | unmatched =>
    obtain ⟨i, hi⟩ := decodeUnmatched_ok h
    simp [decodeArm, h, hi]
  | branch => cases hl : w.getLsbD 24 <;> simp [decodeArm, h, hl, -BitVec.getLsbD_eq_getElem]
  | msrReg | msrImm => cases hr : w.getLsbD 22 <;> simp [decodeArm, h, hr, -BitVec.getLsbD_eq_getElem]
  | branchExchange | blockTransfer | softwareInterrupt | undefined | singleDataTransfer | singleDataSwap | multiply | multiplyLong
    | mrs => simp [decodeArm, h]

end Sys2Proof
end

section
/-! PROOFS of the family 30_encoding: an opcode is the encoding of the instruction it decodes to. The fields of an opcode, put back at
their places, keep every bit that the row of its family leaves open. -/

namespace Sys2Proof

/-- An instruction is well-formed and has the opcode. -/
def Encodes (i : Instr) (c : Code) : Prop := i.WellFormed ∧ encode i = c

/-- A field is one of its finitely many values, as a literal. -/
theorem exists_toNat_eq {n : Nat} (v : BitVec n) : ∃ k < 2 ^ n, v.toNat = k ∧ v = BitVec.ofNat n k :=
  ⟨v.toNat, v.isLt, rfl, by simp⟩

/-! ## The fields of an opcode, put back at their places -/

section
variable {m : Nat} (v : BitVec m) (lo : Nat)

theorem placeReg_regAt : placeReg lo (regAt v lo) = v &&& place lo (BitVec.allOnes 4) := place_fieldAt_and v lo 4

theorem placeLo_loRegAt : placeLo lo (loRegAt v lo) = v &&& place lo (BitVec.allOnes 3) := place_fieldAt_and v lo 3

theorem placeBit_getLsbD : placeBit lo (v.getLsbD lo) = v &&& place lo (BitVec.allOnes 1) := by
  have hbit : BitVec.ofBool (v.getLsbD lo) = fieldAt v lo 1 := BitVec.eq_of_getLsbD_eq fun i hi => by
    obtain rfl : i = 0 := by omega
    rw [Machine.getLsbD_fieldAt, BitVec.getLsbD_ofBool]
    simp
  rw [placeBit, hbit, place_fieldAt_and]

end

/-- What the masks of its fields keep of an opcode is the opcode, where they leave no bit out. -/
theorem and_allOnes_of_eq {m : Nat} {v mask : BitVec m} (h : mask = BitVec.allOnes m) : v &&& mask = v := by
  rw [h, BitVec.and_allOnes]

section
variable {w : Word}

theorem place_shiftType : place 5 (ShiftType.ofCode (fieldAt w 5 2)).code = w &&& place 5 (BitVec.allOnes 2) := by
  have hcode : ∀ c : BitVec 2, (ShiftType.ofCode c).code = c := by decide
  rw [hcode, place_fieldAt]

theorem indexOf_p : (indexOf w).p = w.getLsbD 24 := by
  rw [indexOf]
  cases w.getLsbD 24 <;> cases w.getLsbD 21 <;> rfl

theorem indexOf_w : (indexOf w).w = w.getLsbD 21 := by
  rw [indexOf]
  cases w.getLsbD 24 <;> cases w.getLsbD 21 <;> rfl

theorem BlockForm.p_ofPU (p u : Bool) : (BlockForm.ofPU p u).p = p := by cases p <;> cases u <;> rfl

theorem BlockForm.u_ofPU (p u : Bool) : (BlockForm.ofPU p u).u = u := by cases p <;> cases u <;> rfl

/-! ## The operands -/

/-- A shifter operand holds bits 25 and 11:0, where a register shift has bit 7 clear (R114). -/
theorem shifterOf_bits (h7 : w.getLsbD 25 = false → w.getLsbD 4 = true → w.getLsbD 7 = false) :
    (shifterOf w).bits = w &&& 0x02000FFF := by
  unfold shifterOf
  split
  next h25 =>
    have hfixed : (0x02000000 : Word) = placeBit 25 (w.getLsbD 25) := by rw [h25]; rfl
    rw [ShifterOperand.bits, hfixed]
    simp only [placeBit_getLsbD, place_fieldAt, ← BitVec.and_or_distrib_left]
    rfl
  next h25 =>
    rw [Bool.not_eq_true] at h25
    split
    next h4 =>
      have hfixed : (0x00000010 : Word) = placeBit 25 (w.getLsbD 25) ||| placeBit 7 (w.getLsbD 7) ||| placeBit 4 (w.getLsbD 4) := by
        rw [h25, h7 h25 h4, h4]; rfl
      rw [ShifterOperand.bits, hfixed]
      simp only [placeBit_getLsbD, placeReg_regAt, place_shiftType, ← BitVec.and_or_distrib_left]
      rfl
    next h4 =>
      have hfixed : (0 : Word) = placeBit 25 (w.getLsbD 25) ||| placeBit 4 (w.getLsbD 4) := by
        rw [h25, Bool.eq_false_iff.mpr h4]; rfl
      rw [← BitVec.zero_or (x := ShifterOperand.bits _), ← BitVec.ofNat_eq_ofNat, hfixed, ShifterOperand.bits]
      simp only [placeBit_getLsbD, place_fieldAt, placeReg_regAt, place_shiftType, ← BitVec.and_or_distrib_left]
      rfl

/-- A mode-2 offset holds bits 25 and 11:0, where a register offset has bit 4 clear (R119). -/
theorem offset2Of_bits (h4 : w.getLsbD 25 = true → w.getLsbD 4 = false) : (offset2Of w).bits = w &&& 0x02000FFF := by
  unfold offset2Of
  split
  next h25 =>
    have hfixed : (0x02000000 : Word) = placeBit 25 (w.getLsbD 25) ||| placeBit 4 (w.getLsbD 4) := by rw [h25, h4 h25]; rfl
    rw [Offset2.bits, hfixed]
    simp only [placeBit_getLsbD, place_fieldAt, placeReg_regAt, place_shiftType, ← BitVec.and_or_distrib_left]
    rfl
  next h25 =>
    have hfixed : (0 : Word) = placeBit 25 (w.getLsbD 25) := by rw [Bool.eq_false_iff.mpr h25]; rfl
    rw [← BitVec.zero_or (x := Offset2.bits _), ← BitVec.ofNat_eq_ofNat, hfixed, Offset2.bits]
    simp only [placeBit_getLsbD, place_fieldAt, ← BitVec.and_or_distrib_left]
    rfl

/-- The mode-3 offset that `decodeHalfword` cuts out of a word (R118). -/
def offset3Of (w : Word) : Offset3 :=
  if w.getLsbD 22 then .imm (fieldAt w 8 4 ++ fieldAt w 0 4) else .reg (regAt w 0)

/-- A mode-3 offset holds bits 22, 11:8 and 3:0, where a register offset has bits 11:8 clear (R118, R228). -/
theorem offset3Of_bits (h8 : w.getLsbD 22 = false → fieldAt w 8 4 = 0) : (offset3Of w).bits = w &&& 0x00400F0F := by
  unfold offset3Of
  split
  next h22 =>
    have hfixed : (0x00400000 : Word) = placeBit 22 (w.getLsbD 22) := by rw [h22]; rfl
    have hhigh : fieldAt (fieldAt w 8 4 ++ fieldAt w 0 4) 4 4 = fieldAt w 8 4 := BitVec.extractLsb'_append_eq_left
    have hlow : fieldAt (fieldAt w 8 4 ++ fieldAt w 0 4) 0 4 = fieldAt w 0 4 := BitVec.extractLsb'_append_eq_right
    rw [Offset3.bits, hfixed, hhigh, hlow]
    simp only [placeBit_getLsbD, place_fieldAt, ← BitVec.and_or_distrib_left]
    rfl
  next h22 =>
    rw [Bool.not_eq_true] at h22
    have hfixed : (0 : Word) = placeBit 22 (w.getLsbD 22) ||| place 8 (fieldAt w 8 4) := by rw [h22, h8 h22]; rfl
    rw [← BitVec.zero_or (x := Offset3.bits _), ← BitVec.ofNat_eq_ofNat, hfixed, Offset3.bits]
    simp only [placeBit_getLsbD, place_fieldAt, placeReg_regAt, ← BitVec.and_or_distrib_left]
    rfl

end

end Sys2Proof
end

section
/-! PROOFS of the family 30_encoding: an ARM word is the encoding of the instruction it decodes to, the data-processing words (R112 to R114). -/

namespace Sys2Proof

section
variable {w : Word}

/-! ## Data processing -/

/-- A test fixes S in its row (R113, R133 item 1). -/
theorem encDp_setS {base base' : Word} (h : base' = base ||| placeBit 20 true) (c : Cond) (rn rd : Reg) (op : ShifterOperand) :
    encDp base' c false rn rd op = encDp base c true rn rd op := by
  have hclear : (placeBit 20 false : Word) = 0#32 := rfl
  rw [encDp, encDp, h, hclear, BitVec.or_zero, BitVec.or_assoc base, BitVec.or_comm (placeBit 20 true), ← BitVec.or_assoc base]

/-- The opcode number of a data-processing instruction is bits 24:21 of its word (R113). -/
theorem decodeDataProcessing_eq {i : Instr} (h : decodeDataProcessing w = .ok i) :
    Encodes i (.arm (encDp (place 21 (fieldAt w 21 4)) (condOf w) (w.getLsbD 20) (regAt w 16) (regAt w 12) (shifterOf w))) := by
  rw [decodeDataProcessing] at h
  obtain ⟨op, hlt, hnat, hop⟩ := exists_toNat_eq (fieldAt w 21 4)
  rw [hnat] at h
  rw [hop]
  obtain hlow | ⟨hge, htest⟩ | hhigh : op < 8 ∨ (8 ≤ op ∧ op < 12) ∨ 12 ≤ op := by omega
  · interval_cases op <;> cases h <;> exact ⟨rfl, rfl⟩
  · cases hs : w.getLsbD 20 <;> rw [hs] at h <;> interval_cases op <;> cases h
    all_goals exact ⟨rfl, congrArg Code.arm (encDp_setS (by rfl) _ _ _ _)⟩
  · interval_cases op <;> cases h <;> exact ⟨rfl, rfl⟩

/-- A register shift with bit 7 set is a multiply, a swap or a halfword transfer (R130). -/
theorem regShift_of_dataProcessing (h : classifyArm w = .dataProcessing) :
    w.getLsbD 25 = false → w.getLsbD 4 = true → w.getLsbD 7 = false := by
  intro h25 h4
  by_contra h7
  have hspace : w &&& 0x0C000000 = 0 := matches_of_classifyArm h (by simp [armRows])
  have hbits : w &&& 0x0E400090 = 0x00000090 ||| placeBit 22 (w.getLsbD 22) := by
    have hmask : (0x0E400090 : Word) = 0x0C000000 ||| place 25 (BitVec.allOnes 1) ||| place 7 (BitVec.allOnes 1)
        ||| place 4 (BitVec.allOnes 1) ||| place 22 (BitVec.allOnes 1) := by decide
    simp only [hmask, BitVec.and_or_distrib_left, hspace, ← placeBit_getLsbD, h25, h4, Bool.of_not_eq_false h7]
    congr 1
  have hkinds : ∀ b : Bool,
      .dataProcessing ∉ (possibleKinds 0x0E400090 (0x00000090 ||| placeBit 22 b) armRows).map (·.getD .unmatched) := by decide
  exact classifyArm_ne_of_possibleKinds hbits (hkinds _) h

end

end Sys2Proof
end

section
/-! PROOFS of the family 30_encoding: the words of the data, load and store families (R112 to R121) are the encodings of their
instructions. -/

namespace Sys2Proof

theorem Encodes.of_eq {i : Instr} {v w : Word} (h : Encodes i (.arm v)) (hv : v = w) : Encodes i (.arm w) := hv ▸ h

section
variable {w : Word}

/-- A word of the data-processing family is the encoding of its instruction (R112 to R114). -/
theorem decodeDataProcessing_encodes {i : Instr} (h : classifyArm w = .dataProcessing) (hd : decodeDataProcessing w = .ok i) :
    Encodes i (.arm w) := by
  have hspace : w &&& 0x0C000000 = 0 := matches_of_classifyArm h (by simp [armRows])
  refine (decodeDataProcessing_eq hd).of_eq ?_
  rw [← BitVec.zero_or (x := encDp ..), ← BitVec.ofNat_eq_ofNat, ← hspace]
  simp only [encDp, shifterOf_bits (regShift_of_dataProcessing h), place_condOf, place_fieldAt, placeReg_regAt, placeBit_getLsbD,
    ← BitVec.and_or_distrib_left]
  exact and_allOnes_of_eq (by decide)

/-! ## Multiplies and swaps -/

theorem decodeMultiply_encodes (h : classifyArm w = .multiply) : Encodes (decodeMultiply w) (.arm w) := by
  have hrow : w &&& 0x0FC000F0 = 0x00000090 := matches_of_classifyArm h (by simp [armRows])
  refine Encodes.of_eq (v := encMul (0x00000090 ||| placeBit 21 (w.getLsbD 21)) (condOf w) (w.getLsbD 20) (regAt w 16) (regAt w 12)
    (regAt w 8) (regAt w 0)) ?_ ?_
  · rw [decodeMultiply]
    cases w.getLsbD 21 <;> exact ⟨rfl, rfl⟩
  · simp only [encMul, ← hrow, place_condOf, placeReg_regAt, placeBit_getLsbD, ← BitVec.and_or_distrib_left]
    exact and_allOnes_of_eq (by decide)

theorem decodeMultiplyLong_encodes (h : classifyArm w = .multiplyLong) : Encodes (decodeMultiplyLong w) (.arm w) := by
  have hrow : w &&& 0x0F8000F0 = 0x00800090 := matches_of_classifyArm h (by simp [armRows])
  refine Encodes.of_eq (v := encMul (0x00800090 ||| placeBit 22 (w.getLsbD 22) ||| placeBit 21 (w.getLsbD 21)) (condOf w)
    (w.getLsbD 20) (regAt w 16) (regAt w 12) (regAt w 8) (regAt w 0)) ?_ ?_
  · rw [decodeMultiplyLong]
    cases w.getLsbD 22 <;> cases w.getLsbD 21 <;> exact ⟨rfl, rfl⟩
  · simp only [encMul, ← hrow, place_condOf, placeReg_regAt, placeBit_getLsbD, ← BitVec.and_or_distrib_left]
    exact and_allOnes_of_eq (by decide)

theorem decodeSwap_encodes (h : classifyArm w = .singleDataSwap) : Encodes (decodeSwap w) (.arm w) := by
  have hrow : w &&& 0x0FB00FF0 = 0x01000090 := matches_of_classifyArm h (by simp [armRows])
  refine Encodes.of_eq (v := encSwp (0x01000090 ||| placeBit 22 (w.getLsbD 22)) (condOf w) (regAt w 16) (regAt w 12) (regAt w 0))
    ?_ ?_
  · rw [decodeSwap]
    cases w.getLsbD 22 <;> exact ⟨rfl, rfl⟩
  · simp only [encSwp, ← hrow, place_condOf, placeReg_regAt, placeBit_getLsbD, ← BitVec.and_or_distrib_left]
    exact and_allOnes_of_eq (by decide)

/-! ## Loads and stores -/

/-- A register offset with bit 4 set is of the Undefined family (R120, R130). -/
theorem regOffset_of_singleDataTransfer (h : classifyArm w = .singleDataTransfer) : w.getLsbD 25 = true → w.getLsbD 4 = false := by
  intro h25
  by_contra h4
  have hspace : w &&& 0x0C000000 = 0x04000000 := matches_of_classifyArm h (by simp [armRows])
  have hbits : w &&& 0x0E000010 = 0x06000010 := by
    have hmask : (0x0E000010 : Word) = 0x0C000000 ||| place 25 (BitVec.allOnes 1) ||| place 4 (BitVec.allOnes 1) := by decide
    simp only [hmask, BitVec.and_or_distrib_left, hspace, ← placeBit_getLsbD, h25, Bool.of_not_eq_false h4]
    rfl
  exact classifyArm_ne_of_possibleKinds hbits (by decide) h

/-- A T form fixes W in its row as well (R221, R234, R235). -/
theorem encSingle_postW {base base' : Word} (h : base' = base ||| placeBit 21 true) (c : Cond) (up : Bool) (rn rd : Reg)
    (off : Offset2) : encSingle base' c .postW up rn rd off = encSingle base c .postW up rn rd off := by
  have hw : Index.postW.w = true := rfl
  have hswap : ∀ x y z : Word, x ||| (y ||| z) = y ||| (x ||| z) := fun x y z => by
    rw [← BitVec.or_assoc, BitVec.or_comm x, BitVec.or_assoc]
  simp only [encSingle, h, hw, BitVec.or_assoc, hswap (placeBit 21 true)]
  rw [← BitVec.or_assoc (placeBit 21 true), BitVec.or_self]

theorem decodeSingle_encodes (h : classifyArm w = .singleDataTransfer) : Encodes (decodeSingle w) (.arm w) := by
  have hrow : w &&& 0x0C000000 = 0x04000000 := matches_of_classifyArm h (by simp [armRows])
  refine Encodes.of_eq (v := encSingle (0x04000000 ||| placeBit 22 (w.getLsbD 22) ||| placeBit 20 (w.getLsbD 20)) (condOf w)
    (indexOf w) (w.getLsbD 23) (regAt w 16) (regAt w 12) (offset2Of w)) ?_ ?_
  · rw [decodeSingle]
    cases indexOf w
    case postW =>
      cases w.getLsbD 22 <;> cases w.getLsbD 20 <;> exact ⟨rfl, congrArg Code.arm (encSingle_postW (by rfl) _ _ _ _ _)⟩
    all_goals cases w.getLsbD 22 <;> cases w.getLsbD 20 <;> exact ⟨rfl, rfl⟩
  · simp only [encSingle, ← hrow, offset2Of_bits (regOffset_of_singleDataTransfer h), indexOf_p, indexOf_w, place_condOf,
      placeReg_regAt, placeBit_getLsbD, ← BitVec.and_or_distrib_left]
    exact and_allOnes_of_eq (by decide)

/-- A halfword word that decodes has bits 11:8 clear under a register offset (R133 item 4), and its SH field is bits 6:5 (R118). -/
theorem decodeHalfword_eq {i : Instr} (h : decodeHalfword w = .ok i) :
    (w.getLsbD 22 = false → fieldAt w 8 4 = 0) ∧
      Encodes i (.arm (encHalf (0x00000090 ||| place 5 (fieldAt w 5 2) ||| placeBit 20 (w.getLsbD 20)) (condOf w) (indexOf w)
        (w.getLsbD 23) (regAt w 16) (regAt w 12) (offset3Of w))) := by
  rw [decodeHalfword] at h
  obtain ⟨sh, hlt, hnat, hsh⟩ := exists_toNat_eq (fieldAt w 5 2)
  rw [hnat] at h
  rw [hsh]
  by_cases hoff : w.getLsbD 22 = false ∧ fieldAt w 8 4 ≠ 0
  · interval_cases sh <;> cases hl : w.getLsbD 20 <;> simp only [hl, if_pos hoff] at h <;> cases h
  · refine ⟨fun h22 => by_contra fun h8 => hoff ⟨h22, h8⟩, ?_⟩
    interval_cases sh <;> cases hl : w.getLsbD 20 <;> simp only [hl, if_neg hoff] at h <;> cases h <;> exact ⟨rfl, rfl⟩

theorem decodeHalfword_encodes {i : Instr} (h : classifyArm w = .halfwordReg ∨ classifyArm w = .halfwordImm)
    (hd : decodeHalfword w = .ok i) : Encodes i (.arm w) := by
  have hrow : w &&& 0x0E000090 = 0x00000090 := by
    have hmask : (0x0E000090 : Word) = 0x0E400090 &&& 0x0E000090 := by decide
    obtain h | h := h
    · have h22 : w &&& 0x0E400090 = 0x00000090 := matches_of_classifyArm h (by simp [armRows])
      rw [hmask, ← BitVec.and_assoc, h22]
      rfl
    · have h22 : w &&& 0x0E400090 = 0x00400090 := matches_of_classifyArm h (by simp [armRows])
      rw [hmask, ← BitVec.and_assoc, h22]
      rfl
  obtain ⟨h8, hfields⟩ := decodeHalfword_eq hd
  refine hfields.of_eq ?_
  simp only [encHalf, ← hrow, offset3Of_bits h8, indexOf_p, indexOf_w, place_condOf, place_fieldAt, placeReg_regAt, placeBit_getLsbD,
    ← BitVec.and_or_distrib_left]
  exact and_allOnes_of_eq (by decide)

theorem decodeBlock_encodes (h : classifyArm w = .blockTransfer) : Encodes (decodeBlock w) (.arm w) := by
  have hrow : w &&& 0x0E000000 = 0x08000000 := matches_of_classifyArm h (by simp [armRows])
  have h15 : (fieldAt w 0 16).getLsbD 15 = w.getLsbD 15 := Machine.getLsbD_fieldAt w 0 16 15
  refine Encodes.of_eq (v := encBlock (0x08000000 ||| placeBit 22 (w.getLsbD 22) ||| placeBit 20 (w.getLsbD 20)) (condOf w)
    (.ofPU (w.getLsbD 24) (w.getLsbD 23)) (w.getLsbD 21) (regAt w 16) (fieldAt w 0 16)) ?_ ?_
  · rw [decodeBlock, ← h15]
    generalize fieldAt w 0 16 = list
    cases w.getLsbD 22 <;> cases w.getLsbD 20
    case true.true =>
      cases hpc : list.getLsbD 15
      · exact ⟨congrArg not hpc, rfl⟩
      · exact ⟨hpc, rfl⟩
    case true.false => exact ⟨rfl, rfl⟩
    all_goals cases BlockForm.ofPU (w.getLsbD 24) (w.getLsbD 23) <;> exact ⟨rfl, rfl⟩
  · simp only [encBlock, ← hrow, BlockForm.p_ofPU, BlockForm.u_ofPU, place_condOf, place_fieldAt, placeReg_regAt, placeBit_getLsbD,
      ← BitVec.and_or_distrib_left]
    exact and_allOnes_of_eq (by decide)

end

end Sys2Proof
end

section
/-! PROOFS of the family 30_encoding: the words of the other ARM families (R115, R120, R122 to R125), and of all of them (R130). -/

namespace Sys2Proof

section
variable {w : Word}

/-! ## Branches, status registers and traps -/

theorem bx_encodes (h : classifyArm w = .branchExchange) : Encodes (.bx (condOf w) (regAt w 0)) (.arm w) := by
  have hrow : w &&& 0x0FFFFFF0 = 0x012FFF10 := matches_of_classifyArm h (by simp [armRows])
  refine Encodes.of_eq (v := 0x012FFF10 ||| place 28 (condOf w).code ||| placeReg 0 (regAt w 0)) ⟨rfl, rfl⟩ ?_
  simp only [← hrow, place_condOf, placeReg_regAt, ← BitVec.and_or_distrib_left]
  exact and_allOnes_of_eq (by decide)

theorem branch_encodes (h : classifyArm w = .branch) :
    Encodes (if w.getLsbD 24 then .bl (condOf w) (fieldAt w 0 24) else .b (condOf w) (fieldAt w 0 24)) (.arm w) := by
  have hrow : w &&& 0x0E000000 = 0x0A000000 := matches_of_classifyArm h (by simp [armRows])
  refine Encodes.of_eq (v := encImm24 (0x0A000000 ||| placeBit 24 (w.getLsbD 24)) (condOf w) (fieldAt w 0 24)) ?_ ?_
  · cases w.getLsbD 24 <;> exact ⟨rfl, rfl⟩
  · simp only [encImm24, ← hrow, place_condOf, place_fieldAt, placeBit_getLsbD, ← BitVec.and_or_distrib_left]
    exact and_allOnes_of_eq (by decide)

theorem swi_encodes (h : classifyArm w = .softwareInterrupt) : Encodes (.swi (condOf w) (fieldAt w 0 24)) (.arm w) := by
  have hrow : w &&& 0x0F000000 = 0x0F000000 := matches_of_classifyArm h (by simp [armRows])
  have hbase : (0x0F000000 : Word) = place 24 (fieldAt w 24 4) := hrow.symm.trans (place_fieldAt w 24 4).symm
  refine Encodes.of_eq (v := encImm24 0x0F000000 (condOf w) (fieldAt w 0 24)) ⟨rfl, rfl⟩ ?_
  simp only [encImm24, hbase, place_condOf, place_fieldAt, ← BitVec.and_or_distrib_left]
  exact and_allOnes_of_eq (by decide)

theorem mrs_encodes (h : classifyArm w = .mrs) : Encodes (.mrs (condOf w) (w.getLsbD 22) (regAt w 12)) (.arm w) := by
  have hrow : w &&& 0x0FBF0FFF = 0x010F0000 := matches_of_classifyArm h (by simp [armRows])
  refine Encodes.of_eq (v := 0x010F0000 ||| place 28 (condOf w).code ||| placeBit 22 (w.getLsbD 22) ||| placeReg 12 (regAt w 12))
    ⟨rfl, rfl⟩ ?_
  simp only [← hrow, place_condOf, placeReg_regAt, placeBit_getLsbD, ← BitVec.and_or_distrib_left]
  exact and_allOnes_of_eq (by decide)

theorem msrReg_encodes (h : classifyArm w = .msrReg) :
    Encodes (if w.getLsbD 22 then .msrSpsrReg (condOf w) (fieldAt w 16 4) (regAt w 0)
      else .msrCpsrReg (condOf w) (fieldAt w 16 4) (regAt w 0)) (.arm w) := by
  have hrow : w &&& 0x0FB0FFF0 = 0x0120F000 := matches_of_classifyArm h (by simp [armRows])
  refine Encodes.of_eq (v := encMsrReg (0x0120F000 ||| placeBit 22 (w.getLsbD 22)) (condOf w) (fieldAt w 16 4) (regAt w 0)) ?_ ?_
  · cases w.getLsbD 22 <;> exact ⟨rfl, rfl⟩
  · simp only [encMsrReg, ← hrow, place_condOf, place_fieldAt, placeReg_regAt, placeBit_getLsbD, ← BitVec.and_or_distrib_left]
    exact and_allOnes_of_eq (by decide)

theorem msrImm_encodes (h : classifyArm w = .msrImm) :
    Encodes (if w.getLsbD 22 then .msrSpsrImm (condOf w) (fieldAt w 16 4) (fieldAt w 8 4) (fieldAt w 0 8)
      else .msrCpsrImm (condOf w) (fieldAt w 16 4) (fieldAt w 8 4) (fieldAt w 0 8)) (.arm w) := by
  have hrow : w &&& 0x0FB0F000 = 0x0320F000 := matches_of_classifyArm h (by simp [armRows])
  refine Encodes.of_eq (v := encMsrImm (0x0320F000 ||| placeBit 22 (w.getLsbD 22)) (condOf w) (fieldAt w 16 4) (fieldAt w 8 4)
    (fieldAt w 0 8)) ?_ ?_
  · cases w.getLsbD 22 <;> exact ⟨rfl, rfl⟩
  · simp only [encMsrImm, ← hrow, place_condOf, place_fieldAt, placeBit_getLsbD, ← BitVec.and_or_distrib_left]
    exact and_allOnes_of_eq (by decide)

theorem und_encodes (h : classifyArm w = .undefined) : Encodes (.und (condOf w) (fieldAt w 5 20) (fieldAt w 0 4)) (.arm w) :=
  ⟨rfl, congrArg Code.arm (encUnd_fields (mask_of_classifyArm_undefined h))⟩

theorem decodeUnmatched_encodes {i : Instr} (h : decodeUnmatched w = .ok i) : Encodes i (.arm w) := by
  unfold decodeUnmatched at h
  split at h
  case isTrue h6 =>
    split at h <;> rename_i h20 <;> cases h
    · exact ⟨rfl, congrArg Code.arm (encLdc_fields (by decide) h6 h20)⟩
    · exact ⟨rfl, congrArg Code.arm (encLdc_fields (by decide) h6 (Bool.eq_false_iff.mpr h20))⟩
  case isFalse =>
    split at h
    case isTrue h14 =>
      split at h <;> rename_i h4
      · split at h <;> rename_i h20 <;> cases h
        · exact ⟨rfl, congrArg Code.arm (encMcr_fields (by decide) h14 h4 h20)⟩
        · exact ⟨rfl, congrArg Code.arm (encMcr_fields (by decide) h14 h4 (Bool.eq_false_iff.mpr h20))⟩
      · cases h
        exact ⟨rfl, congrArg Code.arm (encCdp_fields h14 (Bool.eq_false_iff.mpr h4))⟩
    case isFalse => cases h

/-- An ARM word that decodes is the encoding of its instruction. -/
theorem decodeArm_encodes {i : Instr} (h : decodeArm w = .ok i) : Encodes i (.arm w) := by
  rw [decodeArm] at h
  cases hk : classifyArm w <;> simp only [hk, ← apply_ite Except.ok] at h
  case dataProcessing => exact decodeDataProcessing_encodes hk h
  case halfwordReg => exact decodeHalfword_encodes (.inl hk) h
  case halfwordImm => exact decodeHalfword_encodes (.inr hk) h
  case unmatched => exact decodeUnmatched_encodes h
  all_goals cases h
  case branchExchange => exact bx_encodes hk
  case blockTransfer => exact decodeBlock_encodes hk
  case branch => exact branch_encodes hk
  case softwareInterrupt => exact swi_encodes hk
  case undefined => exact und_encodes hk
  case singleDataTransfer => exact decodeSingle_encodes hk
  case singleDataSwap => exact decodeSwap_encodes hk
  case multiply => exact decodeMultiply_encodes hk
  case multiplyLong => exact decodeMultiplyLong_encodes hk
  case mrs => exact mrs_encodes hk
  case msrReg => exact msrReg_encodes hk
  case msrImm => exact msrImm_encodes hk

end

end Sys2Proof
end

section
/-! PROOFS of the family 30_encoding: a THUMB halfword is the encoding of the instruction it decodes to, family by family (R140, R150). -/

namespace Sys2Proof

theorem Encodes.of_thumb_eq {i : Instr} {v h : Half} (hi : Encodes i (.thumb v)) (hv : v = h) : Encodes i (.thumb h) := hv ▸ hi

section
variable {h : Half}

theorem matches_of_thumbRowOf {mask format : Half} {k : ThumbFamily} (hk : thumbRowOf h = some k)
    (hr : ⟨mask, format, k⟩ ∈ thumbRows) : h &&& mask = format :=
  matches_of_firstMatch (r := ⟨mask, format, k⟩) (by decide) hr hk

/-- Op = 11 of format 1 is format 2 (R150). -/
theorem shiftOp_lt (hk : thumbRowOf h = some .moveShiftedRegister) : (fieldAt h 11 2).toNat < 3 := by
  have hrow : h &&& 0xE000 = 0x0000 := matches_of_thumbRowOf hk (by simp [thumbRows])
  have hbits : h &&& 0xF800 = 0x0000 ||| place 11 (fieldAt h 11 2) := by
    have hmask : (0xF800 : Half) = 0xE000 ||| place 11 (BitVec.allOnes 2) := by decide
    rw [hmask, BitVec.and_or_distrib_left, hrow, ← place_fieldAt_and]
  have hop : ∀ op : BitVec 2, some .moveShiftedRegister ∈ possibleKinds 0xF800 (0x0000 ||| place 11 op) thumbRows → op.toNat < 3 := by
    decide
  refine hop _ ?_
  rw [← hk]
  exact firstMatch_mem_possibleKinds hbits thumbRows

theorem decodeThumbShifted_encodes (hk : thumbRowOf h = some .moveShiftedRegister) : Encodes (decodeThumbShifted h) (.thumb h) := by
  have hrow : h &&& 0xE000 = 0x0000 := matches_of_thumbRowOf hk (by simp [thumbRows])
  refine Encodes.of_thumb_eq (v := 0x0000 ||| place 11 (fieldAt h 11 2) ||| place 6 (fieldAt h 6 5) ||| placeLo 3 (loRegAt h 3) |||
    placeLo 0 (loRegAt h 0)) ?_ ?_
  · have hthree := shiftOp_lt hk
    obtain ⟨op, hlt, hnat, hop⟩ := exists_toNat_eq (fieldAt h 11 2)
    rw [hnat] at hthree
    rw [decodeThumbShifted, hnat, hop]
    interval_cases op <;> exact ⟨rfl, rfl⟩
  · simp only [← hrow, place_fieldAt_and, placeLo_loRegAt, ← BitVec.and_or_distrib_left]
    exact and_allOnes_of_eq (by decide)

theorem decodeThumbAddSub_encodes (hk : thumbRowOf h = some .addSubtract) : Encodes (decodeThumbAddSub h) (.thumb h) := by
  have hrow : h &&& 0xF800 = 0x1800 := matches_of_thumbRowOf hk (by simp [thumbRows])
  refine Encodes.of_thumb_eq (v := 0x1800 ||| placeBit 10 (h.getLsbD 10) ||| placeBit 9 (h.getLsbD 9) |||
    placeLo 6 (loRegAt h 6) ||| placeLo 3 (loRegAt h 3) ||| placeLo 0 (loRegAt h 0)) ?_ ?_
  · rw [decodeThumbAddSub]
    cases h.getLsbD 10 <;> cases h.getLsbD 9 <;> exact ⟨rfl, rfl⟩
  · simp only [← hrow, placeLo_loRegAt, placeBit_getLsbD, ← BitVec.and_or_distrib_left]
    exact and_allOnes_of_eq (by decide)

theorem decodeThumbImm8_encodes (hk : thumbRowOf h = some .moveCompareAddSubtractImmediate) :
    Encodes (decodeThumbImm8 h) (.thumb h) := by
  have hrow : h &&& 0xE000 = 0x2000 := matches_of_thumbRowOf hk (by simp [thumbRows])
  refine Encodes.of_thumb_eq (v := 0x2000 ||| place 11 (fieldAt h 11 2) ||| placeLo 8 (loRegAt h 8) ||| place 0 (fieldAt h 0 8)) ?_ ?_
  · obtain ⟨op, hlt, hnat, hop⟩ := exists_toNat_eq (fieldAt h 11 2)
    rw [decodeThumbImm8, hnat, hop]
    interval_cases op <;> exact ⟨rfl, rfl⟩
  · simp only [← hrow, place_fieldAt_and, placeLo_loRegAt, ← BitVec.and_or_distrib_left]
    exact and_allOnes_of_eq (by decide)

theorem decodeThumbAlu_encodes (hk : thumbRowOf h = some .aluOperation) : Encodes (decodeThumbAlu h) (.thumb h) := by
  have hrow : h &&& 0xFC00 = 0x4000 := matches_of_thumbRowOf hk (by simp [thumbRows])
  refine Encodes.of_thumb_eq (v := 0x4000 ||| place 6 (fieldAt h 6 4) ||| placeLo 3 (loRegAt h 3) ||| placeLo 0 (loRegAt h 0)) ?_ ?_
  · obtain ⟨op, hlt, hnat, hop⟩ := exists_toNat_eq (fieldAt h 6 4)
    rw [decodeThumbAlu, hnat, hop]
    interval_cases op <;> exact ⟨rfl, rfl⟩
  · simp only [← hrow, place_fieldAt_and, placeLo_loRegAt, ← BitVec.and_or_distrib_left]
    exact and_allOnes_of_eq (by decide)

theorem decodeThumbHi_encodes (hk : thumbRowOf h = some .hiRegisterOperationOrBranchExchange) :
    Encodes (decodeThumbHi h) (.thumb h) := by
  have hrow : h &&& 0xFC00 = 0x4400 := matches_of_thumbRowOf hk (by simp [thumbRows])
  refine Encodes.of_thumb_eq (v := 0x4400 ||| place 8 (fieldAt h 8 2) ||| placeBit 7 (h.getLsbD 7) ||| placeBit 6 (h.getLsbD 6) |||
    placeLo 3 (loRegAt h 3) ||| placeLo 0 (loRegAt h 0)) ?_ ?_
  · obtain ⟨op, hlt, hnat, hop⟩ := exists_toNat_eq (fieldAt h 8 2)
    rw [decodeThumbHi, hnat, hop]
    interval_cases op <;> exact ⟨rfl, rfl⟩
  · simp only [← hrow, place_fieldAt_and, placeLo_loRegAt, placeBit_getLsbD, ← BitVec.and_or_distrib_left]
    exact and_allOnes_of_eq (by decide)

theorem thumbLdrPc_encodes (hk : thumbRowOf h = some .pcRelativeLoad) :
    Encodes (.thumbLdrPc (loRegAt h 8) (fieldAt h 0 8)) (.thumb h) := by
  have hrow : h &&& 0xF800 = 0x4800 := matches_of_thumbRowOf hk (by simp [thumbRows])
  refine Encodes.of_thumb_eq (v := 0x4800 ||| placeLo 8 (loRegAt h 8) ||| place 0 (fieldAt h 0 8)) ⟨rfl, rfl⟩ ?_
  simp only [← hrow, place_fieldAt_and, placeLo_loRegAt, ← BitVec.and_or_distrib_left]
  exact and_allOnes_of_eq (by decide)

theorem decodeThumbRegOff_encodes (hk : thumbRowOf h = some .loadStoreRegisterOffset) :
    Encodes (decodeThumbRegOff h) (.thumb h) := by
  have hrow : h &&& 0xF200 = 0x5000 := matches_of_thumbRowOf hk (by simp [thumbRows])
  refine Encodes.of_thumb_eq (v := 0x5000 ||| placeBit 11 (h.getLsbD 11) ||| placeBit 10 (h.getLsbD 10) |||
    placeLo 6 (loRegAt h 6) ||| placeLo 3 (loRegAt h 3) ||| placeLo 0 (loRegAt h 0)) ?_ ?_
  · rw [decodeThumbRegOff]
    cases h.getLsbD 11 <;> cases h.getLsbD 10 <;> exact ⟨rfl, rfl⟩
  · simp only [← hrow, placeLo_loRegAt, placeBit_getLsbD, ← BitVec.and_or_distrib_left]
    exact and_allOnes_of_eq (by decide)

theorem decodeThumbSignExt_encodes (hk : thumbRowOf h = some .loadStoreSignExtended) :
    Encodes (decodeThumbSignExt h) (.thumb h) := by
  have hrow : h &&& 0xF200 = 0x5200 := matches_of_thumbRowOf hk (by simp [thumbRows])
  refine Encodes.of_thumb_eq (v := 0x5200 ||| placeBit 11 (h.getLsbD 11) ||| placeBit 10 (h.getLsbD 10) |||
    placeLo 6 (loRegAt h 6) ||| placeLo 3 (loRegAt h 3) ||| placeLo 0 (loRegAt h 0)) ?_ ?_
  · rw [decodeThumbSignExt]
    cases h.getLsbD 11 <;> cases h.getLsbD 10 <;> exact ⟨rfl, rfl⟩
  · simp only [← hrow, placeLo_loRegAt, placeBit_getLsbD, ← BitVec.and_or_distrib_left]
    exact and_allOnes_of_eq (by decide)

theorem decodeThumbImmOff_encodes (hk : thumbRowOf h = some .loadStoreImmediateOffset) :
    Encodes (decodeThumbImmOff h) (.thumb h) := by
  have hrow : h &&& 0xE000 = 0x6000 := matches_of_thumbRowOf hk (by simp [thumbRows])
  refine Encodes.of_thumb_eq (v := 0x6000 ||| placeBit 12 (h.getLsbD 12) ||| placeBit 11 (h.getLsbD 11) |||
    place 6 (fieldAt h 6 5) ||| placeLo 3 (loRegAt h 3) ||| placeLo 0 (loRegAt h 0)) ?_ ?_
  · rw [decodeThumbImmOff]
    cases h.getLsbD 12 <;> cases h.getLsbD 11 <;> exact ⟨rfl, rfl⟩
  · simp only [← hrow, place_fieldAt_and, placeLo_loRegAt, placeBit_getLsbD, ← BitVec.and_or_distrib_left]
    exact and_allOnes_of_eq (by decide)

theorem thumbHalfword_encodes (hk : thumbRowOf h = some .loadStoreHalfword) :
    Encodes (if h.getLsbD 11 then .thumbLdrhImmOff (fieldAt h 6 5) (loRegAt h 3) (loRegAt h 0)
      else .thumbStrhImmOff (fieldAt h 6 5) (loRegAt h 3) (loRegAt h 0)) (.thumb h) := by
  have hrow : h &&& 0xF000 = 0x8000 := matches_of_thumbRowOf hk (by simp [thumbRows])
  refine Encodes.of_thumb_eq (v := 0x8000 ||| placeBit 11 (h.getLsbD 11) ||| place 6 (fieldAt h 6 5) ||| placeLo 3 (loRegAt h 3) |||
    placeLo 0 (loRegAt h 0)) ?_ ?_
  · cases h.getLsbD 11 <;> exact ⟨rfl, rfl⟩
  · simp only [← hrow, place_fieldAt_and, placeLo_loRegAt, placeBit_getLsbD, ← BitVec.and_or_distrib_left]
    exact and_allOnes_of_eq (by decide)

theorem thumbSpRelative_encodes (hk : thumbRowOf h = some .spRelativeLoadStore) :
    Encodes (if h.getLsbD 11 then .thumbLdrSp (loRegAt h 8) (fieldAt h 0 8)
      else .thumbStrSp (loRegAt h 8) (fieldAt h 0 8)) (.thumb h) := by
  have hrow : h &&& 0xF000 = 0x9000 := matches_of_thumbRowOf hk (by simp [thumbRows])
  refine Encodes.of_thumb_eq (v := 0x9000 ||| placeBit 11 (h.getLsbD 11) ||| placeLo 8 (loRegAt h 8) ||| place 0 (fieldAt h 0 8)) ?_ ?_
  · cases h.getLsbD 11 <;> exact ⟨rfl, rfl⟩
  · simp only [← hrow, place_fieldAt_and, placeLo_loRegAt, placeBit_getLsbD, ← BitVec.and_or_distrib_left]
    exact and_allOnes_of_eq (by decide)

theorem thumbLoadAddress_encodes (hk : thumbRowOf h = some .loadAddress) :
    Encodes (if h.getLsbD 11 then .thumbAddSp (loRegAt h 8) (fieldAt h 0 8)
      else .thumbAddPc (loRegAt h 8) (fieldAt h 0 8)) (.thumb h) := by
  have hrow : h &&& 0xF000 = 0xA000 := matches_of_thumbRowOf hk (by simp [thumbRows])
  refine Encodes.of_thumb_eq (v := 0xA000 ||| placeBit 11 (h.getLsbD 11) ||| placeLo 8 (loRegAt h 8) ||| place 0 (fieldAt h 0 8)) ?_ ?_
  · cases h.getLsbD 11 <;> exact ⟨rfl, rfl⟩
  · simp only [← hrow, place_fieldAt_and, placeLo_loRegAt, placeBit_getLsbD, ← BitVec.and_or_distrib_left]
    exact and_allOnes_of_eq (by decide)

theorem thumbMultiple_encodes (hk : thumbRowOf h = some .multipleLoadStore) :
    Encodes (if h.getLsbD 11 then .thumbLdmia (loRegAt h 8) (fieldAt h 0 8)
      else .thumbStmia (loRegAt h 8) (fieldAt h 0 8)) (.thumb h) := by
  have hrow : h &&& 0xF000 = 0xC000 := matches_of_thumbRowOf hk (by simp [thumbRows])
  refine Encodes.of_thumb_eq (v := 0xC000 ||| placeBit 11 (h.getLsbD 11) ||| placeLo 8 (loRegAt h 8) ||| place 0 (fieldAt h 0 8)) ?_ ?_
  · cases h.getLsbD 11 <;> exact ⟨rfl, rfl⟩
  · simp only [← hrow, place_fieldAt_and, placeLo_loRegAt, placeBit_getLsbD, ← BitVec.and_or_distrib_left]
    exact and_allOnes_of_eq (by decide)

theorem thumbAddOffsetToSp_encodes (hk : thumbRowOf h = some .addOffsetToSp) :
    Encodes (if h.getLsbD 7 then .thumbSpMinus (fieldAt h 0 7) else .thumbSpPlus (fieldAt h 0 7)) (.thumb h) := by
  have hrow : h &&& 0xFF00 = 0xB000 := matches_of_thumbRowOf hk (by simp [thumbRows])
  refine Encodes.of_thumb_eq (v := 0xB000 ||| placeBit 7 (h.getLsbD 7) ||| place 0 (fieldAt h 0 7)) ?_ ?_
  · cases h.getLsbD 7 <;> exact ⟨rfl, rfl⟩
  · simp only [← hrow, place_fieldAt_and, placeBit_getLsbD, ← BitVec.and_or_distrib_left]
    exact and_allOnes_of_eq (by decide)

theorem thumbPushPop_encodes (hk : thumbRowOf h = some .pushPop) :
    Encodes (if h.getLsbD 11 then .thumbPop (h.getLsbD 8) (fieldAt h 0 8)
      else .thumbPush (h.getLsbD 8) (fieldAt h 0 8)) (.thumb h) := by
  have hrow : h &&& 0xF600 = 0xB400 := matches_of_thumbRowOf hk (by simp [thumbRows])
  refine Encodes.of_thumb_eq (v := 0xB400 ||| placeBit 11 (h.getLsbD 11) ||| placeBit 8 (h.getLsbD 8) |||
    place 0 (fieldAt h 0 8)) ?_ ?_
  · cases h.getLsbD 11 <;> exact ⟨rfl, rfl⟩
  · simp only [← hrow, place_fieldAt_and, placeBit_getLsbD, ← BitVec.and_or_distrib_left]
    exact and_allOnes_of_eq (by decide)

theorem thumbSwi_encodes (hk : thumbRowOf h = some .softwareInterrupt) : Encodes (.thumbSwi (fieldAt h 0 8)) (.thumb h) := by
  have hrow : h &&& 0xFF00 = 0xDF00 := matches_of_thumbRowOf hk (by simp [thumbRows])
  refine Encodes.of_thumb_eq (v := 0xDF00 ||| place 0 (fieldAt h 0 8)) ⟨rfl, rfl⟩ ?_
  simp only [← hrow, place_fieldAt_and, ← BitVec.and_or_distrib_left]
  exact and_allOnes_of_eq (by decide)

theorem thumbUnd_encodes (hk : thumbRowOf h = some .undefined) : Encodes (.thumbUnd (fieldAt h 0 8)) (.thumb h) := by
  have hrow : h &&& 0xFF00 = 0xDE00 := matches_of_thumbRowOf hk (by simp [thumbRows])
  refine Encodes.of_thumb_eq (v := 0xDE00 ||| place 0 (fieldAt h 0 8)) ⟨rfl, rfl⟩ ?_
  simp only [← hrow, place_fieldAt_and, ← BitVec.and_or_distrib_left]
  exact and_allOnes_of_eq (by decide)

theorem thumbB_encodes (hk : thumbRowOf h = some .unconditionalBranch) : Encodes (.thumbB (fieldAt h 0 11)) (.thumb h) := by
  have hrow : h &&& 0xF800 = 0xE000 := matches_of_thumbRowOf hk (by simp [thumbRows])
  refine Encodes.of_thumb_eq (v := 0xE000 ||| place 0 (fieldAt h 0 11)) ⟨rfl, rfl⟩ ?_
  simp only [← hrow, place_fieldAt_and, ← BitVec.and_or_distrib_left]
  exact and_allOnes_of_eq (by decide)

/-- The codes 1110 and 1111 of format 16 are the reserved code and format 17 (R150). -/
theorem thumbCond_lt (hk : thumbRowOf h = some .conditionalBranch) : (fieldAt h 8 4).toNat < 14 := by
  have hrow : h &&& 0xF000 = 0xD000 := matches_of_thumbRowOf hk (by simp [thumbRows])
  have hbits : h &&& 0xFF00 = 0xD000 ||| place 8 (fieldAt h 8 4) := by
    have hmask : (0xFF00 : Half) = 0xF000 ||| place 8 (BitVec.allOnes 4) := by decide
    rw [hmask, BitVec.and_or_distrib_left, hrow, ← place_fieldAt_and]
  have hcond : ∀ c : BitVec 4, some .conditionalBranch ∈ possibleKinds 0xFF00 (0xD000 ||| place 8 c) thumbRows → c.toNat < 14 := by
    decide
  refine hcond _ ?_
  rw [← hk]
  exact firstMatch_mem_possibleKinds hbits thumbRows

theorem thumbBCond_encodes (hk : thumbRowOf h = some .conditionalBranch) :
    Encodes (.thumbBCond (fieldAt h 8 4) (fieldAt h 0 8)) (.thumb h) := by
  have hrow : h &&& 0xF000 = 0xD000 := matches_of_thumbRowOf hk (by simp [thumbRows])
  refine Encodes.of_thumb_eq (v := 0xD000 ||| place 8 (fieldAt h 8 4) ||| place 0 (fieldAt h 0 8))
    ⟨decide_eq_true (thumbCond_lt hk), rfl⟩ ?_
  simp only [← hrow, place_fieldAt_and, ← BitVec.and_or_distrib_left]
  exact and_allOnes_of_eq (by decide)

theorem thumbLongBranch_encodes (hk : thumbRowOf h = some .longBranchWithLink) :
    Encodes (if h.getLsbD 11 then .thumbBlLow (fieldAt h 0 11) else .thumbBlHigh (fieldAt h 0 11)) (.thumb h) := by
  have hrow : h &&& 0xF000 = 0xF000 := matches_of_thumbRowOf hk (by simp [thumbRows])
  have hbase : (0xF000 : Half) = place 12 (fieldAt h 12 4) := hrow.symm.trans (place_fieldAt_and h 12 4).symm
  refine Encodes.of_thumb_eq (v := 0xF000 ||| placeBit 11 (h.getLsbD 11) ||| place 0 (fieldAt h 0 11)) ?_ ?_
  · cases h.getLsbD 11 <;> exact ⟨rfl, rfl⟩
  · simp only [hbase, place_fieldAt_and, placeBit_getLsbD, ← BitVec.and_or_distrib_left]
    exact and_allOnes_of_eq (by decide)

/-- A THUMB halfword that decodes is the encoding of its instruction. -/
theorem decodeThumb_encodes {i : Instr} (hi : decodeThumb h = .ok i) : Encodes i (.thumb h) := by
  rw [decodeThumb] at hi
  cases hk : thumbRowOf h with
  | none =>
    rw [hk] at hi
    cases hi
  | some fam =>
    cases fam <;> simp only [hk, ← apply_ite Except.ok, Except.ok.injEq] at hi <;> subst hi
    case moveShiftedRegister => exact decodeThumbShifted_encodes hk
    case addSubtract => exact decodeThumbAddSub_encodes hk
    case moveCompareAddSubtractImmediate => exact decodeThumbImm8_encodes hk
    case aluOperation => exact decodeThumbAlu_encodes hk
    case hiRegisterOperationOrBranchExchange => exact decodeThumbHi_encodes hk
    case pcRelativeLoad => exact thumbLdrPc_encodes hk
    case loadStoreRegisterOffset => exact decodeThumbRegOff_encodes hk
    case loadStoreSignExtended => exact decodeThumbSignExt_encodes hk
    case loadStoreImmediateOffset => exact decodeThumbImmOff_encodes hk
    case loadStoreHalfword => exact thumbHalfword_encodes hk
    case spRelativeLoadStore => exact thumbSpRelative_encodes hk
    case loadAddress => exact thumbLoadAddress_encodes hk
    case addOffsetToSp => exact thumbAddOffsetToSp_encodes hk
    case pushPop => exact thumbPushPop_encodes hk
    case multipleLoadStore => exact thumbMultiple_encodes hk
    case conditionalBranch => exact thumbBCond_encodes hk
    case softwareInterrupt => exact thumbSwi_encodes hk
    case undefined => exact thumbUnd_encodes hk
    case unconditionalBranch => exact thumbB_encodes hk
    case longBranchWithLink => exact thumbLongBranch_encodes hk

end

theorem decodeCode_encodes {c : Code} {i : Instr} (h : decodeCode c = .ok i) : Encodes i c := by
  cases c with
  | arm w => exact decodeArm_encodes h
  | thumb half => exact decodeThumb_encodes h

/-- Settles O2: the fields that the decoder cuts out of an opcode and the bits of its row leave no bit out. -/
theorem encodeOfDecode : Obligations.EncodeOfDecode := by
  intro c i h
  obtain ⟨hwf, henc⟩ := decodeCode_encodes h
  exact ⟨hwf, henc, by rw [← henc, Laws.codeLength]⟩

end Sys2Proof
end

section
/-! PROOFS of the family 30_encoding: the fields of an opcode that is put together from fields. -/

namespace Sys2Proof

/-! ## Fields of an encoded opcode

The normal form of `simp`: what is put at a place is a `place`, and what is cut out of an opcode, a bit too, is a `fieldAt`. -/

section
variable {m n : Nat}

@[simp] theorem placeReg_eq (lo : Nat) (r : Reg) : (placeReg lo r : BitVec m) = place lo (BitVec.ofFin (w := 4) r) := rfl

@[simp] theorem placeLo_eq (lo : Nat) (r : LoReg) : (placeLo lo r : BitVec m) = place lo (BitVec.ofFin (w := 3) r) := rfl

@[simp] theorem placeBit_eq (lo : Nat) (b : Bool) : (placeBit lo b : BitVec m) = place lo (BitVec.ofBool b) := rfl

@[simp] theorem regAt_eq (v : BitVec m) (lo : Nat) : regAt v lo = (fieldAt v lo 4).toFin := rfl

@[simp] theorem loRegAt_eq (v : BitVec m) (lo : Nat) : loRegAt v lo = (fieldAt v lo 3).toFin := rfl

@[simp] theorem fieldAt_or (v w : BitVec m) (lo n : Nat) : fieldAt (v ||| w) lo n = fieldAt v lo n ||| fieldAt w lo n :=
  BitVec.extractLsb'_or

@[simp] theorem fieldAt_ofNat (k lo n : Nat) : fieldAt (BitVec.ofNat m k) lo n = BitVec.ofNat n ((k % 2 ^ m) >>> lo) := by
  rw [fieldAt, BitVec.extractLsb', BitVec.toNat_ofNat]

@[simp] theorem fieldAt_self (v : BitVec n) : fieldAt v 0 n = v := BitVec.extractLsb'_eq_self

@[simp] theorem fieldAt_place_within (lo : Nat) (v : BitVec n) (lo' n' : Nat) (h : lo ≤ lo' ∧ lo' + n' ≤ lo + n ∧ lo' + n' ≤ m) :
    fieldAt (place lo v : BitVec m) lo' n' = fieldAt v (lo' - lo) n' := by
  obtain ⟨hlo, -, hm⟩ := h
  refine BitVec.eq_of_getLsbD_eq fun i hi => ?_
  rw [Machine.getLsbD_fieldAt, Machine.getLsbD_place, Machine.getLsbD_fieldAt, Nat.sub_add_comm hlo]
  simp [show lo' + i < m by omega, show lo ≤ lo' + i by omega]

@[simp] theorem fieldAt_place_of_disjoint (lo : Nat) (v : BitVec n) (lo' n' : Nat) (h : lo' + n' ≤ lo ∨ lo + n ≤ lo') :
    fieldAt (place lo v : BitVec m) lo' n' = 0 := by
  refine BitVec.eq_of_getLsbD_eq fun i hi => ?_
  rw [Machine.getLsbD_fieldAt, Machine.getLsbD_place]
  obtain h | h := h
  · simp [show ¬ lo ≤ lo' + i by omega]
  · simp [BitVec.getLsbD_of_ge v (lo' + i - lo) (by omega)]

/-- A bit of an opcode is a field of one bit. -/
@[simp] theorem getElem_eq_fieldAt (v : BitVec m) (i : Nat) (h : i < m) : v[i] = (fieldAt v i 1 == 1#1) := by
  have hbit : fieldAt v i 1 = BitVec.ofBool v[i] := BitVec.eq_of_getLsbD_eq fun j hj => by
    obtain rfl : j = 0 := by omega
    rw [Machine.getLsbD_fieldAt, BitVec.getLsbD_ofBool, ← BitVec.getLsbD_eq_getElem h]
    simp
  rw [hbit]
  cases v[i] <;> rfl

@[simp] theorem ofBool_beq_one (b : Bool) : (BitVec.ofBool b == 1#1) = b := by cases b <;> rfl

/-- What a mask keeps of a field is the mask's own field there. -/
theorem place_and (lo : Nat) (v : BitVec n) (mask : BitVec m) : place lo v &&& mask = place lo (v &&& fieldAt mask lo n) := by
  refine BitVec.eq_of_getLsbD_eq fun i hi => ?_
  rw [BitVec.getLsbD_and, Machine.getLsbD_place, Machine.getLsbD_place, BitVec.getLsbD_and, Machine.getLsbD_fieldAt]
  by_cases hlo : lo ≤ i
  · by_cases hn : i - lo < n
    · simp [hi, hlo, hn, Nat.add_sub_cancel' hlo]
    · simp [BitVec.getLsbD_of_ge v (i - lo) (by omega)]
  · simp [hlo]

@[simp] theorem place_and_of_disjoint (lo : Nat) (v : BitVec n) (mask : BitVec m) (h : fieldAt mask lo n = 0#n) :
    place lo v &&& mask = 0#m := by
  rw [place_and, h, BitVec.and_zero, place]
  simp

@[simp] theorem place_and_of_covered (lo : Nat) (v : BitVec n) (mask : BitVec m) (h : fieldAt mask lo n = BitVec.allOnes n) :
    place lo v &&& mask = place lo v := by
  rw [place_and, h, BitVec.and_allOnes]

end

end Sys2Proof
end

section
/-! PROOFS of the family 30_encoding: the encoding of an ARM instruction decodes to it (R112 to R125). -/

namespace Sys2Proof

/-! ## The small codes -/

@[simp] theorem Cond.ofCode_code (c : Cond) : Cond.ofCode c.code = c := by cases c <;> rfl

@[simp] theorem ShiftType.ofCode_code (ty : ShiftType) : ShiftType.ofCode ty.code = ty := by cases ty <;> rfl

@[simp] theorem Index.ofPW_p_w (idx : Index) : Index.ofPW idx.p idx.w = idx := by cases idx <;> rfl

@[simp] theorem BlockForm.ofPU_p_u (form : BlockForm) : BlockForm.ofPU form.p form.u = form := by cases form <;> rfl

/-! ## Data processing -/

section
variable (o : BitVec 4) (c : Cond) (sf : Bool) (rn rd : Reg) (op : ShifterOperand)

@[simp] theorem classifyArm_encDp (hs : o.toNat / 4 = 2 → sf = true) :
    classifyArm (encDp (place 21 o) c sf rn rd op) = .dataProcessing := by
  cases op with
  | imm rot imm8 =>
    have hkind : ∀ (o : BitVec 4) (sf : Bool), (o.toNat / 4 = 2 → sf = true) →
        possibleKinds 0x0FF00000 (place 21 o ||| placeBit 20 sf ||| 0x02000000) armRows = [some .dataProcessing] := by decide
    refine classifyArm_of_possibleKinds ?_ (hkind o sf hs)
    simp [encDp, ShifterOperand.bits, BitVec.and_or_distrib_right]
  | immShift amount ty rm =>
    have hkind : ∀ (o : BitVec 4) (sf : Bool), (o.toNat / 4 = 2 → sf = true) →
        possibleKinds 0x0FF00010 (place 21 o ||| placeBit 20 sf) armRows = [some .dataProcessing] := by decide
    refine classifyArm_of_possibleKinds ?_ (hkind o sf hs)
    simp [encDp, ShifterOperand.bits, BitVec.and_or_distrib_right]
  | regShift rs ty rm =>
    have hkind : ∀ (o : BitVec 4) (sf : Bool), (o.toNat / 4 = 2 → sf = true) →
        possibleKinds 0x0FF00090 (place 21 o ||| placeBit 20 sf ||| 0x00000010) armRows = [some .dataProcessing] := by decide
    refine classifyArm_of_possibleKinds ?_ (hkind o sf hs)
    simp [encDp, ShifterOperand.bits, BitVec.and_or_distrib_right]

@[simp] theorem fieldAt_encDp_opcode : fieldAt (encDp (place 21 o) c sf rn rd op) 21 4 = o := by
  cases op <;> simp [encDp, ShifterOperand.bits]

@[simp] theorem condOf_encDp : condOf (encDp (place 21 o) c sf rn rd op) = c := by
  cases op <;> simp [condOf, encDp, ShifterOperand.bits]

@[simp] theorem fieldAt_encDp_s : fieldAt (encDp (place 21 o) c sf rn rd op) 20 1 = BitVec.ofBool sf := by
  cases op <;> simp [encDp, ShifterOperand.bits]

@[simp] theorem fieldAt_encDp_rn : fieldAt (encDp (place 21 o) c sf rn rd op) 16 4 = BitVec.ofFin rn := by
  cases op <;> simp [encDp, ShifterOperand.bits]

@[simp] theorem fieldAt_encDp_rd : fieldAt (encDp (place 21 o) c sf rn rd op) 12 4 = BitVec.ofFin rd := by
  cases op <;> simp [encDp, ShifterOperand.bits]

@[simp] theorem shifterOf_encDp : shifterOf (encDp (place 21 o) c sf rn rd op) = op := by
  cases op <;> simp [shifterOf, encDp, ShifterOperand.bits]

end

/-- Known bits that leave one answer open reduce the decoder to the fields of that kind. -/
theorem decodeArm_of_known {w known bits : Word} {k : Option ArmKind} {d : Decoded} (hw : w &&& known = bits)
    (hk : possibleKinds known bits armRows = [k]) (hd : classifyArm w = k.getD .unmatched → decodeArm w = d) : decodeArm w = d :=
  hd (congrArg (·.getD .unmatched) (firstMatch_of_possibleKinds hw hk))

/-! ## Multiplies and swaps -/

theorem decodeArm_encMul (a : Bool) (c : Cond) (sf : Bool) (r16 r12 rs rm : Reg) :
    decodeArm (encMul (0x00000090 ||| placeBit 21 a) c sf r16 r12 rs rm) =
      .ok (if a then .mla c sf r16 r12 rs rm else .mul c sf r16 r12 rs rm) := by
  refine decodeArm_of_known (known := 0x0FC000F0) (bits := 0x00000090) (k := some .multiply) ?_ (by decide) fun hk => ?_
  · simp [encMul, BitVec.and_or_distrib_right]
  · rw [decodeArm, hk]
    simp [encMul, decodeMultiply, condOf]

theorem decodeArm_encMul_long (u a : Bool) (c : Cond) (sf : Bool) (rdHi rdLo rs rm : Reg) :
    decodeArm (encMul (0x00800090 ||| placeBit 22 u ||| placeBit 21 a) c sf rdHi rdLo rs rm) =
      .ok (if u then if a then .smlal c sf rdHi rdLo rs rm else .smull c sf rdHi rdLo rs rm
        else if a then .umlal c sf rdHi rdLo rs rm else .umull c sf rdHi rdLo rs rm) := by
  refine decodeArm_of_known (known := 0x0F8000F0) (bits := 0x00800090) (k := some .multiplyLong) ?_ (by decide) fun hk => ?_
  · simp [encMul, BitVec.and_or_distrib_right]
  · rw [decodeArm, hk]
    cases u <;> cases a <;> simp [encMul, decodeMultiplyLong, condOf]

theorem decodeArm_encSwp (b : Bool) (c : Cond) (rn rd rm : Reg) :
    decodeArm (encSwp (0x01000090 ||| placeBit 22 b) c rn rd rm) = .ok (if b then .swpb c rn rd rm else .swp c rn rd rm) := by
  refine decodeArm_of_known (known := 0x0FB00FF0) (bits := 0x01000090) (k := some .singleDataSwap) ?_ (by decide) fun hk => ?_
  · simp [encSwp, BitVec.and_or_distrib_right]
  · rw [decodeArm, hk]
    simp [encSwp, decodeSwap, condOf]

/-! ## Loads and stores -/

section
variable (b l : Bool) (c : Cond) (idx : Index) (up : Bool) (rn rd : Reg)

theorem classifyArm_encSingle (off : Offset2) :
    classifyArm (encSingle (0x04000000 ||| placeBit 22 b ||| placeBit 20 l) c idx up rn rd off) = .singleDataTransfer := by
  cases off with
  | imm o =>
    refine classifyArm_of_possibleKinds (known := 0x0E000000) (bits := 0x04000000) ?_ (by decide)
    simp [encSingle, Offset2.bits, BitVec.and_or_distrib_right]
  | reg amount ty rm =>
    refine classifyArm_of_possibleKinds (known := 0x0E000010) (bits := 0x06000000) ?_ (by decide)
    simp [encSingle, Offset2.bits, BitVec.and_or_distrib_right]

/-- The fields that `decodeSingle` cuts out of a word are those put into it. -/
theorem encSingle_fields (off : Offset2) {w : Word}
    (hw : w = encSingle (0x04000000 ||| placeBit 22 b ||| placeBit 20 l) c idx up rn rd off) :
    condOf w = c ∧ indexOf w = idx ∧ w.getLsbD 23 = up ∧ regAt w 16 = rn ∧ regAt w 12 = rd ∧ offset2Of w = off ∧ w.getLsbD 20 = l ∧
      w.getLsbD 22 = b := by
  subst hw
  cases off <;> simp [encSingle, Offset2.bits, condOf, indexOf, offset2Of]

theorem decodeArm_encSingle (off : Offset2) (hidx : idx.wfMode2 = true) :
    decodeArm (encSingle (0x04000000 ||| placeBit 22 b ||| placeBit 20 l) c idx up rn rd off) =
      .ok (if b then if l then .ldrb c idx up rn rd off else .strb c idx up rn rd off
        else if l then .ldr c idx up rn rd off else .str c idx up rn rd off) := by
  rw [decodeArm, classifyArm_encSingle]
  obtain ⟨hc, hix, hup, hrn, hrd, hoff, hl, hb⟩ := encSingle_fields b l c idx up rn rd off rfl
  simp only [decodeSingle, hc, hix, hup, hrn, hrd, hoff, hl, hb]
  cases idx with
  | postW => cases hidx
  | offset | pre | post => cases b <;> cases l <;> rfl

theorem decodeArm_encSingle_postW (off : Offset2) :
    decodeArm (encSingle (0x04000000 ||| placeBit 22 b ||| placeBit 20 l) c .postW up rn rd off) =
      .ok (if b then if l then .ldrbt c up rn rd off else .strbt c up rn rd off
        else if l then .ldrt c up rn rd off else .strt c up rn rd off) := by
  rw [decodeArm, classifyArm_encSingle]
  obtain ⟨hc, hix, hup, hrn, hrd, hoff, hl, hb⟩ := encSingle_fields b l c .postW up rn rd off rfl
  simp only [decodeSingle, hc, hix, hup, hrn, hrd, hoff, hl, hb]
  cases b <;> cases l <;> rfl

/-- The fields that `decodeHalfword` cuts out of a word are those put into it, and a register offset has bits 11:8 clear (R228). -/
theorem encHalf_fields (sh : BitVec 2) (off : Offset3) {w : Word}
    (hw : w = encHalf (0x00000090 ||| place 5 sh ||| placeBit 20 l) c idx up rn rd off) :
    condOf w = c ∧ indexOf w = idx ∧ w.getLsbD 23 = up ∧ regAt w 16 = rn ∧ regAt w 12 = rd ∧ offset3Of w = off ∧ fieldAt w 5 2 = sh ∧
      w.getLsbD 20 = l ∧ ¬ (w.getLsbD 22 = false ∧ fieldAt w 8 4 ≠ 0) := by
  subst hw
  cases off with
  | imm o =>
    have ho : fieldAt o 4 4 ++ fieldAt o 0 4 = o := BitVec.extractLsb'_append_extractLsb' (w := 4) (len := 4)
    simp [encHalf, Offset3.bits, condOf, indexOf, offset3Of, ho]
  | reg rm => simp [encHalf, Offset3.bits, condOf, indexOf, offset3Of]

theorem decodeHalfword_encHalf (sh : BitVec 2) (off : Offset3) :
    decodeHalfword (encHalf (0x00000090 ||| place 5 sh ||| placeBit 20 l) c idx up rn rd off) =
      if sh = 0 then .error .halfwordSh00
      else if sh = 1 then .ok (if l then .ldrh c idx up rn rd off else .strh c idx up rn rd off)
      else if l = false then .error .signedStore
      else .ok (if sh = 2 then .ldrsb c idx up rn rd off else .ldrsh c idx up rn rd off) := by
  obtain ⟨hc, hix, hup, hrn, hrd, hoff, hsh, hl, hscaled⟩ := encHalf_fields l c idx up rn rd sh off rfl
  rw [offset3Of] at hoff
  simp only [decodeHalfword, hc, hix, hup, hrn, hrd, hoff, hsh, hl, if_neg hscaled]
  have hcases : ∀ s : BitVec 2, s = 0 ∨ s = 1 ∨ s = 2 ∨ s = 3 := by decide
  obtain rfl | rfl | rfl | rfl := hcases sh <;> cases l <;> rfl

theorem decodeArm_encHalf (sh : BitVec 2) (hsh : sh ≠ 0) (off : Offset3) :
    decodeArm (encHalf (0x00000090 ||| place 5 sh ||| placeBit 20 l) c idx up rn rd off) =
      decodeHalfword (encHalf (0x00000090 ||| place 5 sh ||| placeBit 20 l) c idx up rn rd off) := by
  have hkind : ∀ sh : BitVec 2, sh ≠ 0 →
      possibleKinds 0x0E4000F0 (0x00000090 ||| place 5 sh ||| 0x00400000) armRows = [some .halfwordImm] ∧
        possibleKinds 0x0E4000F0 (0x00000090 ||| place 5 sh) armRows = [some .halfwordReg] := by decide
  obtain ⟨himm, hreg⟩ := hkind sh hsh
  cases off with
  | imm o =>
    rw [decodeArm, classifyArm_of_possibleKinds ?_ himm]
    simp [encHalf, Offset3.bits, BitVec.and_or_distrib_right]
  | reg rm =>
    rw [decodeArm, classifyArm_of_possibleKinds ?_ hreg]
    simp [encHalf, Offset3.bits, BitVec.and_or_distrib_right]

end

section
variable (l : Bool) (c : Cond) (form : BlockForm) (wb : Bool) (rn : Reg) (list : BitVec 16)

theorem decodeArm_encBlock : decodeArm (encBlock (0x08000000 ||| placeBit 20 l) c form wb rn list) =
    .ok (match form with
      | .ia => if l then .ldmia c wb rn list else .stmia c wb rn list
      | .ib => if l then .ldmib c wb rn list else .stmib c wb rn list
      | .da => if l then .ldmda c wb rn list else .stmda c wb rn list
      | .db => if l then .ldmdb c wb rn list else .stmdb c wb rn list) := by
  refine decodeArm_of_known (known := 0x0E000000) (bits := 0x08000000) (k := some .blockTransfer) ?_ (by decide) fun hk => ?_
  · simp [encBlock, BitVec.and_or_distrib_right]
  · rw [decodeArm, hk]
    cases form <;> cases l <;> simp [encBlock, decodeBlock, condOf]

theorem decodeArm_encBlock_user : decodeArm (encBlock (0x08400000 ||| placeBit 20 l) c form wb rn list) =
    .ok (if l then if list.getLsbD 15 then .ldmReturn c form wb rn list else .ldmUser c form wb rn list
      else .stmUser c form wb rn list) := by
  refine decodeArm_of_known (known := 0x0E000000) (bits := 0x08000000) (k := some .blockTransfer) ?_ (by decide) fun hk => ?_
  · simp [encBlock, BitVec.and_or_distrib_right]
  · rw [decodeArm, hk]
    cases l <;> simp [encBlock, decodeBlock, condOf]

end

/-! ## Branches, status registers and traps -/

theorem decodeArm_branch (l : Bool) (c : Cond) (imm24 : BitVec 24) :
    decodeArm (encImm24 (0x0A000000 ||| placeBit 24 l) c imm24) = .ok (if l then .bl c imm24 else .b c imm24) := by
  refine decodeArm_of_known (known := 0x0E000000) (bits := 0x0A000000) (k := some .branch) ?_ (by decide) fun hk => ?_
  · simp [encImm24, BitVec.and_or_distrib_right]
  · rw [decodeArm, hk]
    simp [encImm24, condOf, apply_ite]

theorem decodeArm_swi (c : Cond) (imm24 : BitVec 24) : decodeArm (encImm24 0x0F000000 c imm24) = .ok (.swi c imm24) := by
  refine decodeArm_of_known (known := 0x0F000000) (bits := 0x0F000000) (k := some .softwareInterrupt) ?_ (by decide) fun hk => ?_
  · simp [encImm24, BitVec.and_or_distrib_right]
  · rw [decodeArm, hk]
    simp [encImm24, condOf]

theorem decodeArm_bx (c : Cond) (rm : Reg) : decodeArm (0x012FFF10 ||| place 28 c.code ||| placeReg 0 rm) = .ok (.bx c rm) := by
  refine decodeArm_of_known (known := 0x0FFFFFF0) (bits := 0x012FFF10) (k := some .branchExchange) ?_ (by decide) fun hk => ?_
  · simp [BitVec.and_or_distrib_right]
  · rw [decodeArm, hk]
    simp [condOf]

theorem decodeArm_mrs (c : Cond) (spsr : Bool) (rd : Reg) :
    decodeArm (0x010F0000 ||| place 28 c.code ||| placeBit 22 spsr ||| placeReg 12 rd) = .ok (.mrs c spsr rd) := by
  refine decodeArm_of_known (known := 0x0FBF0FFF) (bits := 0x010F0000) (k := some .mrs) ?_ (by decide) fun hk => ?_
  · simp [BitVec.and_or_distrib_right]
  · rw [decodeArm, hk]
    simp [condOf]

theorem decodeArm_encMsrReg (r : Bool) (c : Cond) (mask : BitVec 4) (rm : Reg) :
    decodeArm (encMsrReg (0x0120F000 ||| placeBit 22 r) c mask rm) =
      .ok (if r then .msrSpsrReg c mask rm else .msrCpsrReg c mask rm) := by
  refine decodeArm_of_known (known := 0x0FB0FFF0) (bits := 0x0120F000) (k := some .msrReg) ?_ (by decide) fun hk => ?_
  · simp [encMsrReg, BitVec.and_or_distrib_right]
  · rw [decodeArm, hk]
    simp [encMsrReg, condOf, apply_ite]

theorem decodeArm_encMsrImm (r : Bool) (c : Cond) (mask rot : BitVec 4) (imm8 : BitVec 8) :
    decodeArm (encMsrImm (0x0320F000 ||| placeBit 22 r) c mask rot imm8) =
      .ok (if r then .msrSpsrImm c mask rot imm8 else .msrCpsrImm c mask rot imm8) := by
  refine decodeArm_of_known (known := 0x0FB0F000) (bits := 0x0320F000) (k := some .msrImm) ?_ (by decide) fun hk => ?_
  · simp [encMsrImm, BitVec.and_or_distrib_right]
  · rw [decodeArm, hk]
    simp [encMsrImm, condOf, apply_ite]

theorem decodeArm_encUnd (c : Cond) (hi : BitVec 20) (lo : BitVec 4) : decodeArm (encUnd c hi lo) = .ok (.und c hi lo) := by
  refine decodeArm_of_known (known := 0x0E000010) (bits := 0x06000010) (k := some .undefined) ?_ (by decide) fun hk => ?_
  · simp [encUnd, BitVec.and_or_distrib_right]
  · rw [decodeArm, hk]
    simp [encUnd, condOf]

theorem decodeArm_encCdp (c : Cond) (hi : BitVec 19) (lo : BitVec 4) : decodeArm (encCdp c hi lo) = .ok (.cdp c hi lo) := by
  refine decodeArm_of_known (known := 0x0F000000) (bits := 0x0E000000) (k := none) ?_ (by decide) fun hk => ?_
  · simp [encCdp, BitVec.and_or_distrib_right]
  · rw [decodeArm, hk]
    simp [encCdp, decodeUnmatched, condOf]

theorem decodeArm_encMcr (l : Bool) (c : Cond) (hi : BitVec 3) (mid : BitVec 15) (lo : BitVec 4) :
    decodeArm (encMcr (0x0E000010 ||| placeBit 20 l) c hi mid lo) = .ok (if l then .mrc c hi mid lo else .mcr c hi mid lo) := by
  refine decodeArm_of_known (known := 0x0F000000) (bits := 0x0E000000) (k := none) ?_ (by decide) fun hk => ?_
  · simp [encMcr, BitVec.and_or_distrib_right]
  · rw [decodeArm, hk]
    simp [encMcr, decodeUnmatched, condOf, apply_ite]

theorem decodeArm_encLdc (l : Bool) (c : Cond) (hi : BitVec 4) (lo : BitVec 20) :
    decodeArm (encLdc (0x0C000000 ||| placeBit 20 l) c hi lo) = .ok (if l then .ldc c hi lo else .stc c hi lo) := by
  refine decodeArm_of_known (known := 0x0E000000) (bits := 0x0C000000) (k := none) ?_ (by decide) fun hk => ?_
  · simp [encLdc, BitVec.and_or_distrib_right]
  · rw [decodeArm, hk]
    simp [encLdc, decodeUnmatched, condOf, apply_ite]

end Sys2Proof
end

section
/-! PROOFS of the family 30_encoding: the encoding of a THUMB instruction decodes to it (R140, R150). -/

namespace Sys2Proof

/-- Known bits that leave one row open reduce the decoder to the fields of that row. -/
theorem decodeThumb_of_known (known : Half) (k : ThumbFamily) {h : Half} {d : Decoded}
    (hk : possibleKinds known (h &&& known) thumbRows = [some k]) (hd : thumbRowOf h = some k → decodeThumb h = d) :
    decodeThumb h = d :=
  hd (firstMatch_of_possibleKinds rfl hk)

/-- The sixteen operations of format 4 (R141). -/
theorem decodeThumb_encode_alu (rs rd : LoReg) :
    ∀ i ∈ [Instr.thumbAndAlu rs rd, .thumbEorAlu rs rd, .thumbLslAlu rs rd, .thumbLsrAlu rs rd, .thumbAsrAlu rs rd,
        .thumbAdcAlu rs rd, .thumbSbcAlu rs rd, .thumbRorAlu rs rd, .thumbTstAlu rs rd, .thumbNegAlu rs rd, .thumbCmpAlu rs rd,
        .thumbCmnAlu rs rd, .thumbOrrAlu rs rd, .thumbMulAlu rs rd, .thumbBicAlu rs rd, .thumbMvnAlu rs rd],
      decodeCode (encode i) = .ok i := by
  intro i hi
  fin_cases hi
  all_goals
    refine decodeThumb_of_known 0xFC00 .aluOperation ?_ fun hk => ?_
    · simp [BitVec.and_or_distrib_right]
      decide
    · rw [decodeThumb, hk]
      simp [decodeThumbAlu]

/-- A well-formed THUMB instruction is read back from its halfword: the mask of its row fixes the row, and each field is cut out of the
place it was put at. -/
theorem decodeThumb_encode {i : Instr} (hi : i.isThumb = true) (hwf : i.WellFormed) : decodeCode (encode i) = .ok i := by
  cases i
  case thumbLslImm | thumbLsrImm | thumbAsrImm =>
    refine decodeThumb_of_known 0xF800 .moveShiftedRegister ?_ fun hk => ?_
    · simp [BitVec.and_or_distrib_right]
      decide
    · rw [decodeThumb, hk]
      simp [decodeThumbShifted]
  case thumbAddReg | thumbSubReg | thumbAddImm3 | thumbSubImm3 =>
    refine decodeThumb_of_known 0xF800 .addSubtract ?_ fun hk => ?_
    · simp [BitVec.and_or_distrib_right]
      decide
    · rw [decodeThumb, hk]
      simp [decodeThumbAddSub]
  case thumbMovImm8 | thumbCmpImm8 | thumbAddImm8 | thumbSubImm8 =>
    refine decodeThumb_of_known 0xE000 .moveCompareAddSubtractImmediate ?_ fun hk => ?_
    · simp [BitVec.and_or_distrib_right]
      decide
    · rw [decodeThumb, hk]
      simp [decodeThumbImm8]
  case thumbAndAlu | thumbEorAlu | thumbLslAlu | thumbLsrAlu | thumbAsrAlu | thumbAdcAlu | thumbSbcAlu | thumbRorAlu | thumbTstAlu |
      thumbNegAlu | thumbCmpAlu | thumbCmnAlu | thumbOrrAlu | thumbMulAlu | thumbBicAlu | thumbMvnAlu =>
    rename_i rs rd
    exact decodeThumb_encode_alu rs rd _ (by simp)
  case thumbAddHi | thumbCmpHi | thumbMovHi | thumbBx =>
    refine decodeThumb_of_known 0xFC00 .hiRegisterOperationOrBranchExchange ?_ fun hk => ?_
    · simp [BitVec.and_or_distrib_right]
      decide
    · rw [decodeThumb, hk]
      simp [decodeThumbHi]
  case thumbLdrPc =>
    refine decodeThumb_of_known 0xF800 .pcRelativeLoad ?_ fun hk => ?_
    · simp [BitVec.and_or_distrib_right]
      decide
    · rw [decodeThumb, hk]
      simp
  case thumbStrRegOff | thumbStrbRegOff | thumbLdrRegOff | thumbLdrbRegOff =>
    refine decodeThumb_of_known 0xF200 .loadStoreRegisterOffset ?_ fun hk => ?_
    · simp [BitVec.and_or_distrib_right]
      decide
    · rw [decodeThumb, hk]
      simp [decodeThumbRegOff]
  case thumbStrhRegOff | thumbLdsbRegOff | thumbLdrhRegOff | thumbLdshRegOff =>
    refine decodeThumb_of_known 0xF200 .loadStoreSignExtended ?_ fun hk => ?_
    · simp [BitVec.and_or_distrib_right]
      decide
    · rw [decodeThumb, hk]
      simp [decodeThumbSignExt]
  case thumbStrImmOff | thumbLdrImmOff | thumbStrbImmOff | thumbLdrbImmOff =>
    refine decodeThumb_of_known 0xE000 .loadStoreImmediateOffset ?_ fun hk => ?_
    · simp [BitVec.and_or_distrib_right]
      decide
    · rw [decodeThumb, hk]
      simp [decodeThumbImmOff]
  case thumbStrhImmOff | thumbLdrhImmOff =>
    refine decodeThumb_of_known 0xF000 .loadStoreHalfword ?_ fun hk => ?_
    · simp [BitVec.and_or_distrib_right]
      decide
    · rw [decodeThumb, hk]
      simp
  case thumbStrSp | thumbLdrSp =>
    refine decodeThumb_of_known 0xF000 .spRelativeLoadStore ?_ fun hk => ?_
    · simp [BitVec.and_or_distrib_right]
      decide
    · rw [decodeThumb, hk]
      simp
  case thumbAddPc | thumbAddSp =>
    refine decodeThumb_of_known 0xF000 .loadAddress ?_ fun hk => ?_
    · simp [BitVec.and_or_distrib_right]
      decide
    · rw [decodeThumb, hk]
      simp
  case thumbSpPlus | thumbSpMinus =>
    refine decodeThumb_of_known 0xFF00 .addOffsetToSp ?_ fun hk => ?_
    · simp [BitVec.and_or_distrib_right]
      decide
    · rw [decodeThumb, hk]
      simp
  case thumbPush | thumbPop =>
    refine decodeThumb_of_known 0xF600 .pushPop ?_ fun hk => ?_
    · simp [BitVec.and_or_distrib_right]
      decide
    · rw [decodeThumb, hk]
      simp
  case thumbStmia | thumbLdmia =>
    refine decodeThumb_of_known 0xF000 .multipleLoadStore ?_ fun hk => ?_
    · simp [BitVec.and_or_distrib_right]
      decide
    · rw [decodeThumb, hk]
      simp
  case thumbSwi =>
    refine decodeThumb_of_known 0xFF00 .softwareInterrupt ?_ fun hk => ?_
    · simp [BitVec.and_or_distrib_right]
      decide
    · rw [decodeThumb, hk]
      simp
  case thumbUnd =>
    refine decodeThumb_of_known 0xFF00 .undefined ?_ fun hk => ?_
    · simp [BitVec.and_or_distrib_right]
      decide
    · rw [decodeThumb, hk]
      simp
  case thumbB =>
    refine decodeThumb_of_known 0xF800 .unconditionalBranch ?_ fun hk => ?_
    · simp [BitVec.and_or_distrib_right]
      decide
    · rw [decodeThumb, hk]
      simp
  case thumbBlHigh | thumbBlLow =>
    refine decodeThumb_of_known 0xF000 .longBranchWithLink ?_ fun hk => ?_
    · simp [BitVec.and_or_distrib_right]
      decide
    · rw [decodeThumb, hk]
      simp
  case thumbBCond c soffset8 =>
    have hkind : ∀ c : BitVec 4, c.toNat < 14 →
        possibleKinds 0xFF00 (0xD000 ||| place 8 c) thumbRows = [some .conditionalBranch] := by decide
    have hk : thumbRowOf (0xD000 ||| place 8 c ||| place 0 soffset8) = some .conditionalBranch := by
      refine firstMatch_of_possibleKinds ?_ (hkind c (of_decide_eq_true hwf))
      simp [BitVec.and_or_distrib_right]
    change decodeThumb (0xD000 ||| place 8 c ||| place 0 soffset8) = _
    rw [decodeThumb, hk]
    simp
  all_goals cases hi
end Sys2Proof
end

section
/-! PROOFS of the family 30_encoding: every well-formed instruction is read back from its opcode, and from its bytes (R83, R112 to R125,
R140). -/

namespace Sys2Proof

/-- A well-formed ARM instruction is read back from its word: the flags of its family's word pick its row. -/
theorem decodeArm_encode {i : Instr} (harm : i.isThumb = false) (hwf : i.WellFormed) : decodeCode (encode i) = .ok i := by
  cases i with
  | and c sf rn rd op =>
    change decodeArm (encDp (place 21 0#4) c sf rn rd op) = _
    simp [decodeArm, decodeDataProcessing]
  | eor c sf rn rd op =>
    change decodeArm (encDp (place 21 1#4) c sf rn rd op) = _
    simp [decodeArm, decodeDataProcessing]
  | sub c sf rn rd op =>
    change decodeArm (encDp (place 21 2#4) c sf rn rd op) = _
    simp [decodeArm, decodeDataProcessing]
  | rsb c sf rn rd op =>
    change decodeArm (encDp (place 21 3#4) c sf rn rd op) = _
    simp [decodeArm, decodeDataProcessing]
  | add c sf rn rd op =>
    change decodeArm (encDp (place 21 4#4) c sf rn rd op) = _
    simp [decodeArm, decodeDataProcessing]
  | adc c sf rn rd op =>
    change decodeArm (encDp (place 21 5#4) c sf rn rd op) = _
    simp [decodeArm, decodeDataProcessing]
  | sbc c sf rn rd op =>
    change decodeArm (encDp (place 21 6#4) c sf rn rd op) = _
    simp [decodeArm, decodeDataProcessing]
  | rsc c sf rn rd op =>
    change decodeArm (encDp (place 21 7#4) c sf rn rd op) = _
    simp [decodeArm, decodeDataProcessing]
  | tst c rn rd op =>
    refine (congrArg decodeArm (encDp_setS (base := place 21 8#4) (by rfl) c rn rd op)).trans ?_
    simp [decodeArm, decodeDataProcessing]
  | teq c rn rd op =>
    refine (congrArg decodeArm (encDp_setS (base := place 21 9#4) (by rfl) c rn rd op)).trans ?_
    simp [decodeArm, decodeDataProcessing]
  | cmp c rn rd op =>
    refine (congrArg decodeArm (encDp_setS (base := place 21 10#4) (by rfl) c rn rd op)).trans ?_
    simp [decodeArm, decodeDataProcessing]
  | cmn c rn rd op =>
    refine (congrArg decodeArm (encDp_setS (base := place 21 11#4) (by rfl) c rn rd op)).trans ?_
    simp [decodeArm, decodeDataProcessing]
  | orr c sf rn rd op =>
    change decodeArm (encDp (place 21 12#4) c sf rn rd op) = _
    simp [decodeArm, decodeDataProcessing]
  | mov c sf rn rd op =>
    change decodeArm (encDp (place 21 13#4) c sf rn rd op) = _
    simp [decodeArm, decodeDataProcessing]
  | bic c sf rn rd op =>
    change decodeArm (encDp (place 21 14#4) c sf rn rd op) = _
    simp [decodeArm, decodeDataProcessing]
  | mvn c sf rn rd op =>
    change decodeArm (encDp (place 21 15#4) c sf rn rd op) = _
    simp [decodeArm, decodeDataProcessing]
  | mul c sf rd rn rs rm => exact decodeArm_encMul false c sf rd rn rs rm
  | mla c sf rd rn rs rm => exact decodeArm_encMul true c sf rd rn rs rm
  | umull c sf rdHi rdLo rs rm => exact decodeArm_encMul_long false false c sf rdHi rdLo rs rm
  | umlal c sf rdHi rdLo rs rm => exact decodeArm_encMul_long false true c sf rdHi rdLo rs rm
  | smull c sf rdHi rdLo rs rm => exact decodeArm_encMul_long true false c sf rdHi rdLo rs rm
  | smlal c sf rdHi rdLo rs rm => exact decodeArm_encMul_long true true c sf rdHi rdLo rs rm
  | swp c rn rd rm => exact decodeArm_encSwp false c rn rd rm
  | swpb c rn rd rm => exact decodeArm_encSwp true c rn rd rm
  | ldr c idx up rn rd off => exact decodeArm_encSingle false true c idx up rn rd off hwf
  | str c idx up rn rd off => exact decodeArm_encSingle false false c idx up rn rd off hwf
  | ldrb c idx up rn rd off => exact decodeArm_encSingle true true c idx up rn rd off hwf
  | strb c idx up rn rd off => exact decodeArm_encSingle true false c idx up rn rd off hwf
  | ldrt c up rn rd off =>
    exact (congrArg decodeArm (encSingle_postW (by rfl) c up rn rd off)).trans (decodeArm_encSingle_postW false true c up rn rd off)
  | strt c up rn rd off =>
    exact (congrArg decodeArm (encSingle_postW (by rfl) c up rn rd off)).trans (decodeArm_encSingle_postW false false c up rn rd off)
  | ldrbt c up rn rd off =>
    exact (congrArg decodeArm (encSingle_postW (by rfl) c up rn rd off)).trans (decodeArm_encSingle_postW true true c up rn rd off)
  | strbt c up rn rd off =>
    exact (congrArg decodeArm (encSingle_postW (by rfl) c up rn rd off)).trans (decodeArm_encSingle_postW true false c up rn rd off)
  | ldrh c idx up rn rd off =>
    exact (decodeArm_encHalf true c idx up rn rd 1#2 (by decide) off).trans (decodeHalfword_encHalf true c idx up rn rd 1#2 off)
  | strh c idx up rn rd off =>
    exact (decodeArm_encHalf false c idx up rn rd 1#2 (by decide) off).trans (decodeHalfword_encHalf false c idx up rn rd 1#2 off)
  | ldrsb c idx up rn rd off =>
    exact (decodeArm_encHalf true c idx up rn rd 2#2 (by decide) off).trans (decodeHalfword_encHalf true c idx up rn rd 2#2 off)
  | ldrsh c idx up rn rd off =>
    exact (decodeArm_encHalf true c idx up rn rd 3#2 (by decide) off).trans (decodeHalfword_encHalf true c idx up rn rd 3#2 off)
  | ldmia c wb rn list => exact decodeArm_encBlock true c .ia wb rn list
  | ldmib c wb rn list => exact decodeArm_encBlock true c .ib wb rn list
  | ldmda c wb rn list => exact decodeArm_encBlock true c .da wb rn list
  | ldmdb c wb rn list => exact decodeArm_encBlock true c .db wb rn list
  | stmia c wb rn list => exact decodeArm_encBlock false c .ia wb rn list
  | stmib c wb rn list => exact decodeArm_encBlock false c .ib wb rn list
  | stmda c wb rn list => exact decodeArm_encBlock false c .da wb rn list
  | stmdb c wb rn list => exact decodeArm_encBlock false c .db wb rn list
  | ldmReturn c form wb rn list =>
    have hlist : list.getLsbD 15 = true := hwf
    exact (decodeArm_encBlock_user true c form wb rn list).trans (by rw [hlist]; rfl)
  | ldmUser c form wb rn list =>
    have hlist : list.getLsbD 15 = false := (Bool.not_eq_true' _).mp hwf
    exact (decodeArm_encBlock_user true c form wb rn list).trans (by rw [hlist]; rfl)
  | stmUser c form wb rn list => exact decodeArm_encBlock_user false c form wb rn list
  | b c imm24 => exact decodeArm_branch false c imm24
  | bl c imm24 => exact decodeArm_branch true c imm24
  | bx c rm => exact decodeArm_bx c rm
  | mrs c spsr rd => exact decodeArm_mrs c spsr rd
  | msrCpsrReg c mask rm => exact decodeArm_encMsrReg false c mask rm
  | msrSpsrReg c mask rm => exact decodeArm_encMsrReg true c mask rm
  | msrCpsrImm c mask rot imm8 => exact decodeArm_encMsrImm false c mask rot imm8
  | msrSpsrImm c mask rot imm8 => exact decodeArm_encMsrImm true c mask rot imm8
  | swi c imm24 => exact decodeArm_swi c imm24
  | und c hi lo => exact decodeArm_encUnd c hi lo
  | cdp c hi lo => exact decodeArm_encCdp c hi lo
  | mcr c hi mid lo => exact decodeArm_encMcr false c hi mid lo
  | mrc c hi mid lo => exact decodeArm_encMcr true c hi mid lo
  | stc c hi lo => exact decodeArm_encLdc false c hi lo
  | ldc c hi lo => exact decodeArm_encLdc true c hi lo
  | _ => cases harm

theorem decodeCode_encode {i : Instr} (hwf : i.WellFormed) : decodeCode (encode i) = .ok i := by
  cases hi : i.isThumb
  · exact decodeArm_encode hi hwf
  · exact decodeThumb_encode hi hwf

/-- The bytes of an opcode compose to it again, whatever follows them (R83). -/
theorem takeCode_bytes_append (c : Code) (rest : List Byte) :
    takeCode (Machine.Code.inThumb c) (c.bytes ++ rest) = some (c, rest) := by
  cases c with
  | arm w => exact congrArg (fun w => some (Code.arm w, rest)) (Machine.wordOfBytes_fields w)
  | thumb h => exact congrArg (fun h => some (Code.thumb h, rest)) (Machine.halfOfBytes_fields h)

/-- Settles O1: the bytes compose to the instruction's opcode, which decodes to the instruction. -/
theorem decodeOfEncode : Obligations.DecodeOfEncode := by
  intro i rest hwf
  rw [decodeBytes, encodeBytes, ← Laws.codeLength, takeCode_bytes_append]
  simp only [decodeCode_encode hwf]

end Sys2Proof
end
